-- ==== Sys2Proof/Word.lean ====
section
/-! DEFINITION. The words of the block: a data byte, a bus address, a transaction word. -/

namespace Sys2Proof

/-- A byte, the one width of data the bus moves (spec/00_scope.md R8, spec/20_memory.md R78). -/
abbrev Byte := BitVec 8

/-- A bus address (spec/20_memory.md R70). -/
abbrev Addr := BitVec 16

/-- A transaction word `T`, 26 bits (spec/30_encoding.md R101). -/
abbrev TWord := BitVec 26

end Sys2Proof
end

