-- ==== Sys2Proof/Syntax.lean ====
section
/-! DEFINITION. The transaction kinds: one constructor per row of spec/opcode_table.json, in the table's
order. `u` is `rules.updateRTC`, `a` the 16-bit bus address, `d` the data byte of a write; a kind whose
address or data byte is fixed by its pattern has no such argument. -/

namespace Sys2Proof

/-- A decoded transaction (spec/30_encoding.md R100, R122, R124). -/
inductive Instr where
  /-- `RD.ROM.NOCART` (spec/40_cartridge_common_basic.md R133). -/
  | rdRomNocart (u : Bool) (a : Addr)
  /-- `RD.ROM.BASIC` (spec/40_cartridge_common_basic.md R137). -/
  | rdRomBasic (u : Bool) (a : Addr)
  /-- `RD.ROM0.MBC1` (spec/41_mbc1.md R158). -/
  | rdRom0Mbc1 (u : Bool) (a : Addr)
  /-- `RD.ROMX.MBC1` (spec/41_mbc1.md R164). -/
  | rdRomXMbc1 (u : Bool) (a : Addr)
  /-- `RD.ROM0.MBC3` (spec/42_mbc3.md R176). -/
  | rdRom0Mbc3 (u : Bool) (a : Addr)
  /-- `RD.ROMX.MBC3` (spec/42_mbc3.md R177). -/
  | rdRomXMbc3 (u : Bool) (a : Addr)
  /-- `RD.XRAM.NOCART` (spec/40_cartridge_common_basic.md R135). -/
  | rdXramNocart (u : Bool) (a : Addr)
  /-- `RD.XRAM.BASIC` (spec/40_cartridge_common_basic.md R139). -/
  | rdXramBasic (u : Bool) (a : Addr)
  /-- `RD.XRAM.MBC1` (spec/41_mbc1.md R162). -/
  | rdXramMbc1 (u : Bool) (a : Addr)
  /-- `RD.XRAM.MBC3.OFF` (spec/42_mbc3.md R179). -/
  | rdXramMbc3Off (u : Bool) (a : Addr)
  /-- `RD.XRAM.MBC3.RAM` (spec/42_mbc3.md R182). -/
  | rdXramMbc3Ram (u : Bool) (a : Addr)
  /-- `RD.RTC.MBC3` (spec/42_mbc3.md R185). -/
  | rdRtcMbc3 (u : Bool) (a : Addr)
  /-- `RD.XRAM.MBC3.RSV` (spec/42_mbc3.md R191). -/
  | rdXramMbc3Rsv (u : Bool) (a : Addr)
  /-- `RD.WRAM0` (spec/44_memory_wram_hram_svbk.md R222). -/
  | rdWram0 (u : Bool) (a : Addr)
  /-- `RD.WRAMX` (spec/44_memory_wram_hram_svbk.md R224). -/
  | rdWramX (u : Bool) (a : Addr)
  /-- `RD.FFFF` (spec/45_bus_router_openbus_observer.md R248). -/
  | rdFfff (u : Bool)
  /-- `RD.HRAM` (spec/44_memory_wram_hram_svbk.md R226). -/
  | rdHram (u : Bool) (a : Addr)
  /-- `RD.SVBK` (spec/44_memory_wram_hram_svbk.md R228). -/
  | rdSvbk (u : Bool)
  /-- `RD.OPEN` (spec/45_bus_router_openbus_observer.md R245). -/
  | rdOpen (u : Bool) (a : Addr)
  /-- `WR.ROM.NOCART` (spec/40_cartridge_common_basic.md R134). -/
  | wrRomNocart (u : Bool) (a : Addr) (d : Byte)
  /-- `WR.ROM.BASIC` (spec/40_cartridge_common_basic.md R138). -/
  | wrRomBasic (u : Bool) (a : Addr) (d : Byte)
  /-- `WR.RAMEN.MBC1` (spec/41_mbc1.md R150). -/
  | wrRamenMbc1 (u : Bool) (a : Addr) (d : Byte)
  /-- `WR.ROMB.MBC1` (spec/41_mbc1.md R151). -/
  | wrRombMbc1 (u : Bool) (a : Addr) (d : Byte)
  /-- `WR.RAMB.MBC1` (spec/41_mbc1.md R152). -/
  | wrRambMbc1 (u : Bool) (a : Addr) (d : Byte)
  /-- `WR.MODE.MBC1` (spec/41_mbc1.md R153). -/
  | wrModeMbc1 (u : Bool) (a : Addr) (d : Byte)
  /-- `WR.RAMEN.MBC3` (spec/42_mbc3.md R170). -/
  | wrRamenMbc3 (u : Bool) (a : Addr) (d : Byte)
  /-- `WR.ROMB.MBC3` (spec/42_mbc3.md R171). -/
  | wrRombMbc3 (u : Bool) (a : Addr) (d : Byte)
  /-- `WR.SEL.MBC3` (spec/42_mbc3.md R172). -/
  | wrSelMbc3 (u : Bool) (a : Addr) (d : Byte)
  /-- `WR.LATCH0.MBC3` (spec/42_mbc3.md R173). -/
  | wrLatch0Mbc3 (u : Bool) (a : Addr)
  /-- `WR.LATCH1.MBC3` (spec/42_mbc3.md R174). -/
  | wrLatch1Mbc3 (u : Bool) (a : Addr)
  /-- `WR.LATCHX.MBC3` (spec/42_mbc3.md R175). -/
  | wrLatchXMbc3 (u : Bool) (a : Addr) (d : Byte)
  /-- `WR.XRAM.NOCART` (spec/40_cartridge_common_basic.md R136). -/
  | wrXramNocart (u : Bool) (a : Addr) (d : Byte)
  /-- `WR.XRAM.BASIC` (spec/40_cartridge_common_basic.md R141). -/
  | wrXramBasic (u : Bool) (a : Addr) (d : Byte)
  /-- `WR.XRAM.MBC1` (spec/41_mbc1.md R163). -/
  | wrXramMbc1 (u : Bool) (a : Addr) (d : Byte)
  /-- `WR.XRAM.MBC3.OFF` (spec/42_mbc3.md R180). -/
  | wrXramMbc3Off (u : Bool) (a : Addr) (d : Byte)
  /-- `WR.XRAM.MBC3.RAM` (spec/42_mbc3.md R183). -/
  | wrXramMbc3Ram (u : Bool) (a : Addr) (d : Byte)
  /-- `WR.RTC.S.MBC3` (spec/42_mbc3.md R186). -/
  | wrRtcSMbc3 (u : Bool) (a : Addr) (d : Byte)
  /-- `WR.RTC.M.MBC3` (spec/42_mbc3.md R187). -/
  | wrRtcMMbc3 (u : Bool) (a : Addr) (d : Byte)
  /-- `WR.RTC.H.MBC3` (spec/42_mbc3.md R188). -/
  | wrRtcHMbc3 (u : Bool) (a : Addr) (d : Byte)
  /-- `WR.RTC.DL.MBC3` (spec/42_mbc3.md R189). -/
  | wrRtcDlMbc3 (u : Bool) (a : Addr) (d : Byte)
  /-- `WR.RTC.DH.MBC3` (spec/42_mbc3.md R190). -/
  | wrRtcDhMbc3 (u : Bool) (a : Addr) (d : Byte)
  /-- `WR.XRAM.MBC3.RSV` (spec/42_mbc3.md R192). -/
  | wrXramMbc3Rsv (u : Bool) (a : Addr) (d : Byte)
  /-- `WR.WRAM0` (spec/44_memory_wram_hram_svbk.md R223). -/
  | wrWram0 (u : Bool) (a : Addr) (d : Byte)
  /-- `WR.WRAMX` (spec/44_memory_wram_hram_svbk.md R225). -/
  | wrWramX (u : Bool) (a : Addr) (d : Byte)
  /-- `WR.FFFF` (spec/45_bus_router_openbus_observer.md R249). -/
  | wrFfff (u : Bool) (d : Byte)
  /-- `WR.HRAM` (spec/44_memory_wram_hram_svbk.md R227). -/
  | wrHram (u : Bool) (a : Addr) (d : Byte)
  /-- `WR.SVBK` (spec/44_memory_wram_hram_svbk.md R229). -/
  | wrSvbk (u : Bool) (d : Byte)
  /-- `WR.OPEN` (spec/45_bus_router_openbus_observer.md R247). -/
  | wrOpen (u : Bool) (a : Addr) (d : Byte)
  deriving DecidableEq, Repr

namespace Instr

/-- `rules.updateRTC` of the transaction (spec/30_encoding.md R101, R102). -/
def updateRtc : Instr → Bool
  | .rdRomNocart u _ => u
  | .rdRomBasic u _ => u
  | .rdRom0Mbc1 u _ => u
  | .rdRomXMbc1 u _ => u
  | .rdRom0Mbc3 u _ => u
  | .rdRomXMbc3 u _ => u
  | .rdXramNocart u _ => u
  | .rdXramBasic u _ => u
  | .rdXramMbc1 u _ => u
  | .rdXramMbc3Off u _ => u
  | .rdXramMbc3Ram u _ => u
  | .rdRtcMbc3 u _ => u
  | .rdXramMbc3Rsv u _ => u
  | .rdWram0 u _ => u
  | .rdWramX u _ => u
  | .rdFfff u => u
  | .rdHram u _ => u
  | .rdSvbk u => u
  | .rdOpen u _ => u
  | .wrRomNocart u _ _ => u
  | .wrRomBasic u _ _ => u
  | .wrRamenMbc1 u _ _ => u
  | .wrRombMbc1 u _ _ => u
  | .wrRambMbc1 u _ _ => u
  | .wrModeMbc1 u _ _ => u
  | .wrRamenMbc3 u _ _ => u
  | .wrRombMbc3 u _ _ => u
  | .wrSelMbc3 u _ _ => u
  | .wrLatch0Mbc3 u _ => u
  | .wrLatch1Mbc3 u _ => u
  | .wrLatchXMbc3 u _ _ => u
  | .wrXramNocart u _ _ => u
  | .wrXramBasic u _ _ => u
  | .wrXramMbc1 u _ _ => u
  | .wrXramMbc3Off u _ _ => u
  | .wrXramMbc3Ram u _ _ => u
  | .wrRtcSMbc3 u _ _ => u
  | .wrRtcMMbc3 u _ _ => u
  | .wrRtcHMbc3 u _ _ => u
  | .wrRtcDlMbc3 u _ _ => u
  | .wrRtcDhMbc3 u _ _ => u
  | .wrXramMbc3Rsv u _ _ => u
  | .wrWram0 u _ _ => u
  | .wrWramX u _ _ => u
  | .wrFfff u _ => u
  | .wrHram u _ _ => u
  | .wrSvbk u _ => u
  | .wrOpen u _ _ => u

/-- Whether the transaction is a write (spec/30_encoding.md R100). -/
def isWrite : Instr → Bool
  | .rdRomNocart _ _ => false
  | .rdRomBasic _ _ => false
  | .rdRom0Mbc1 _ _ => false
  | .rdRomXMbc1 _ _ => false
  | .rdRom0Mbc3 _ _ => false
  | .rdRomXMbc3 _ _ => false
  | .rdXramNocart _ _ => false
  | .rdXramBasic _ _ => false
  | .rdXramMbc1 _ _ => false
  | .rdXramMbc3Off _ _ => false
  | .rdXramMbc3Ram _ _ => false
  | .rdRtcMbc3 _ _ => false
  | .rdXramMbc3Rsv _ _ => false
  | .rdWram0 _ _ => false
  | .rdWramX _ _ => false
  | .rdFfff _ => false
  | .rdHram _ _ => false
  | .rdSvbk _ => false
  | .rdOpen _ _ => false
  | .wrRomNocart _ _ _ => true
  | .wrRomBasic _ _ _ => true
  | .wrRamenMbc1 _ _ _ => true
  | .wrRombMbc1 _ _ _ => true
  | .wrRambMbc1 _ _ _ => true
  | .wrModeMbc1 _ _ _ => true
  | .wrRamenMbc3 _ _ _ => true
  | .wrRombMbc3 _ _ _ => true
  | .wrSelMbc3 _ _ _ => true
  | .wrLatch0Mbc3 _ _ => true
  | .wrLatch1Mbc3 _ _ => true
  | .wrLatchXMbc3 _ _ _ => true
  | .wrXramNocart _ _ _ => true
  | .wrXramBasic _ _ _ => true
  | .wrXramMbc1 _ _ _ => true
  | .wrXramMbc3Off _ _ _ => true
  | .wrXramMbc3Ram _ _ _ => true
  | .wrRtcSMbc3 _ _ _ => true
  | .wrRtcMMbc3 _ _ _ => true
  | .wrRtcHMbc3 _ _ _ => true
  | .wrRtcDlMbc3 _ _ _ => true
  | .wrRtcDhMbc3 _ _ _ => true
  | .wrXramMbc3Rsv _ _ _ => true
  | .wrWram0 _ _ _ => true
  | .wrWramX _ _ _ => true
  | .wrFfff _ _ => true
  | .wrHram _ _ _ => true
  | .wrSvbk _ _ => true
  | .wrOpen _ _ _ => true

/-- The bus address of the transaction. -/
def addr : Instr → Addr
  | .rdRomNocart _ a => a
  | .rdRomBasic _ a => a
  | .rdRom0Mbc1 _ a => a
  | .rdRomXMbc1 _ a => a
  | .rdRom0Mbc3 _ a => a
  | .rdRomXMbc3 _ a => a
  | .rdXramNocart _ a => a
  | .rdXramBasic _ a => a
  | .rdXramMbc1 _ a => a
  | .rdXramMbc3Off _ a => a
  | .rdXramMbc3Ram _ a => a
  | .rdRtcMbc3 _ a => a
  | .rdXramMbc3Rsv _ a => a
  | .rdWram0 _ a => a
  | .rdWramX _ a => a
  | .rdFfff _ => 0xFFFF#16
  | .rdHram _ a => a
  | .rdSvbk _ => 0xFF70#16
  | .rdOpen _ a => a
  | .wrRomNocart _ a _ => a
  | .wrRomBasic _ a _ => a
  | .wrRamenMbc1 _ a _ => a
  | .wrRombMbc1 _ a _ => a
  | .wrRambMbc1 _ a _ => a
  | .wrModeMbc1 _ a _ => a
  | .wrRamenMbc3 _ a _ => a
  | .wrRombMbc3 _ a _ => a
  | .wrSelMbc3 _ a _ => a
  | .wrLatch0Mbc3 _ a => a
  | .wrLatch1Mbc3 _ a => a
  | .wrLatchXMbc3 _ a _ => a
  | .wrXramNocart _ a _ => a
  | .wrXramBasic _ a _ => a
  | .wrXramMbc1 _ a _ => a
  | .wrXramMbc3Off _ a _ => a
  | .wrXramMbc3Ram _ a _ => a
  | .wrRtcSMbc3 _ a _ => a
  | .wrRtcMMbc3 _ a _ => a
  | .wrRtcHMbc3 _ a _ => a
  | .wrRtcDlMbc3 _ a _ => a
  | .wrRtcDhMbc3 _ a _ => a
  | .wrXramMbc3Rsv _ a _ => a
  | .wrWram0 _ a _ => a
  | .wrWramX _ a _ => a
  | .wrFfff _ _ => 0xFFFF#16
  | .wrHram _ a _ => a
  | .wrSvbk _ _ => 0xFF70#16
  | .wrOpen _ a _ => a

/-- The data byte of a write; 0x00 on a read, as spec/30_encoding.md R101 writes it. -/
def data : Instr → Byte
  | .rdRomNocart _ _ => 0x00#8
  | .rdRomBasic _ _ => 0x00#8
  | .rdRom0Mbc1 _ _ => 0x00#8
  | .rdRomXMbc1 _ _ => 0x00#8
  | .rdRom0Mbc3 _ _ => 0x00#8
  | .rdRomXMbc3 _ _ => 0x00#8
  | .rdXramNocart _ _ => 0x00#8
  | .rdXramBasic _ _ => 0x00#8
  | .rdXramMbc1 _ _ => 0x00#8
  | .rdXramMbc3Off _ _ => 0x00#8
  | .rdXramMbc3Ram _ _ => 0x00#8
  | .rdRtcMbc3 _ _ => 0x00#8
  | .rdXramMbc3Rsv _ _ => 0x00#8
  | .rdWram0 _ _ => 0x00#8
  | .rdWramX _ _ => 0x00#8
  | .rdFfff _ => 0x00#8
  | .rdHram _ _ => 0x00#8
  | .rdSvbk _ => 0x00#8
  | .rdOpen _ _ => 0x00#8
  | .wrRomNocart _ _ d => d
  | .wrRomBasic _ _ d => d
  | .wrRamenMbc1 _ _ d => d
  | .wrRombMbc1 _ _ d => d
  | .wrRambMbc1 _ _ d => d
  | .wrModeMbc1 _ _ d => d
  | .wrRamenMbc3 _ _ d => d
  | .wrRombMbc3 _ _ d => d
  | .wrSelMbc3 _ _ d => d
  | .wrLatch0Mbc3 _ _ => 0x00#8
  | .wrLatch1Mbc3 _ _ => 0x01#8
  | .wrLatchXMbc3 _ _ d => d
  | .wrXramNocart _ _ d => d
  | .wrXramBasic _ _ d => d
  | .wrXramMbc1 _ _ d => d
  | .wrXramMbc3Off _ _ d => d
  | .wrXramMbc3Ram _ _ d => d
  | .wrRtcSMbc3 _ _ d => d
  | .wrRtcMMbc3 _ _ d => d
  | .wrRtcHMbc3 _ _ d => d
  | .wrRtcDlMbc3 _ _ d => d
  | .wrRtcDhMbc3 _ _ d => d
  | .wrXramMbc3Rsv _ _ d => d
  | .wrWram0 _ _ d => d
  | .wrWramX _ _ d => d
  | .wrFfff _ d => d
  | .wrHram _ _ d => d
  | .wrSvbk _ d => d
  | .wrOpen _ _ d => d

end Instr

end Sys2Proof
end

