-- ==== Sys2Proof/WellFormed.lean ====
section
/-! DEFINITION. Which operands a transaction kind admits: the ranges each kind's rule gives under
"Operands". The conditions on the cartridge and its controller are in Decode.lean (`Instr.applies`). -/

namespace Sys2Proof

/-- `lo <= a <= hi`. -/
def inRange (a : Addr) (lo hi : Nat) : Bool := lo ≤ a.toNat && a.toNat ≤ hi

/-- The open addresses but 0xFFFF, which has rows of its own
(spec/45_bus_router_openbus_observer.md R246, R245). -/
def isOpen (a : Addr) : Bool :=
  inRange a 0x8000 0x9FFF || inRange a 0xE000 0xFF6F || inRange a 0xFF71 0xFF7F

/-- The operands of the instruction are those its rule allows. -/
def Instr.wf : Instr → Bool
  | .rdRomNocart _ a => inRange a 0x0000 0x7FFF
  | .rdRomBasic _ a => inRange a 0x0000 0x7FFF
  | .rdRom0Mbc1 _ a => inRange a 0x0000 0x3FFF
  | .rdRomXMbc1 _ a => inRange a 0x4000 0x7FFF
  | .rdRom0Mbc3 _ a => inRange a 0x0000 0x3FFF
  | .rdRomXMbc3 _ a => inRange a 0x4000 0x7FFF
  | .rdXramNocart _ a => inRange a 0xA000 0xBFFF
  | .rdXramBasic _ a => inRange a 0xA000 0xBFFF
  | .rdXramMbc1 _ a => inRange a 0xA000 0xBFFF
  | .rdXramMbc3Off _ a => inRange a 0xA000 0xBFFF
  | .rdXramMbc3Ram _ a => inRange a 0xA000 0xBFFF
  | .rdRtcMbc3 _ a => inRange a 0xA000 0xBFFF
  | .rdXramMbc3Rsv _ a => inRange a 0xA000 0xBFFF
  | .rdWram0 _ a => inRange a 0xC000 0xCFFF
  | .rdWramX _ a => inRange a 0xD000 0xDFFF
  | .rdFfff _ => true
  | .rdHram _ a => inRange a 0xFF80 0xFFFE
  | .rdSvbk _ => true
  | .rdOpen _ a => isOpen a
  | .wrRomNocart _ a _ => inRange a 0x0000 0x7FFF
  | .wrRomBasic _ a _ => inRange a 0x0000 0x7FFF
  | .wrRamenMbc1 _ a _ => inRange a 0x0000 0x1FFF
  | .wrRombMbc1 _ a _ => inRange a 0x2000 0x3FFF
  | .wrRambMbc1 _ a _ => inRange a 0x4000 0x5FFF
  | .wrModeMbc1 _ a _ => inRange a 0x6000 0x7FFF
  | .wrRamenMbc3 _ a _ => inRange a 0x0000 0x1FFF
  | .wrRombMbc3 _ a _ => inRange a 0x2000 0x3FFF
  | .wrSelMbc3 _ a _ => inRange a 0x4000 0x5FFF
  | .wrLatch0Mbc3 _ a => inRange a 0x6000 0x7FFF
  | .wrLatch1Mbc3 _ a => inRange a 0x6000 0x7FFF
  | .wrLatchXMbc3 _ a d => inRange a 0x6000 0x7FFF && d != 0x00#8 && d != 0x01#8
  | .wrXramNocart _ a _ => inRange a 0xA000 0xBFFF
  | .wrXramBasic _ a _ => inRange a 0xA000 0xBFFF
  | .wrXramMbc1 _ a _ => inRange a 0xA000 0xBFFF
  | .wrXramMbc3Off _ a _ => inRange a 0xA000 0xBFFF
  | .wrXramMbc3Ram _ a _ => inRange a 0xA000 0xBFFF
  | .wrRtcSMbc3 _ a _ => inRange a 0xA000 0xBFFF
  | .wrRtcMMbc3 _ a _ => inRange a 0xA000 0xBFFF
  | .wrRtcHMbc3 _ a _ => inRange a 0xA000 0xBFFF
  | .wrRtcDlMbc3 _ a _ => inRange a 0xA000 0xBFFF
  | .wrRtcDhMbc3 _ a _ => inRange a 0xA000 0xBFFF
  | .wrXramMbc3Rsv _ a _ => inRange a 0xA000 0xBFFF
  | .wrWram0 _ a _ => inRange a 0xC000 0xCFFF
  | .wrWramX _ a _ => inRange a 0xD000 0xDFFF
  | .wrFfff _ _ => true
  | .wrHram _ a _ => inRange a 0xFF80 0xFFFE
  | .wrSvbk _ _ => true
  | .wrOpen _ a _ => isOpen a

end Sys2Proof
end

