-- ==== Sys2Proof/Decode.lean ====
section
/-! DEFINITION. Decoding a transaction word and its inverse: the routing of spec/30_encoding.md R103 to
R106, the refinement by cartridge variant and controller state of R104, R110, R111, R121, and the opcode
table of R122 as data. -/

namespace Sys2Proof

/-- The field `v[hi:lo]` as a number (spec/00_scope.md R8). -/
def field (v hi lo : Nat) : Nat := v / 2 ^ lo % 2 ^ (hi + 1 - lo)

/-! ## What the word alone does not say -/

/-- The RTC registers of the MBC3, by selector value 0x08 to 0x0C (spec/20_memory.md R75). -/
inductive RtcReg where
  | s
  | m
  | h
  | dl
  | dh
  deriving DecidableEq, Repr

/-- What the MBC3's external-RAM window shows (spec/42_mbc3.md R178). -/
inductive Window where
  /-- The gate is closed. -/
  | off
  /-- A RAM bank. -/
  | ram
  /-- An RTC register. -/
  | rtc (r : RtcReg)
  /-- An unassigned selector. -/
  | rsv
  deriving DecidableEq, Repr

/-- `Mbc3Window()` (spec/42_mbc3.md R178; selectors: spec/30_encoding.md R110). -/
def mbc3Window (ramTimerEnable : Bool) (sel : BitVec 4) : Window :=
  if !ramTimerEnable then .off
  else if sel.toNat ≤ 0x03 then .ram
  else if sel.toNat = 0x08 then .rtc .s
  else if sel.toNat = 0x09 then .rtc .m
  else if sel.toNat = 0x0A then .rtc .h
  else if sel.toNat = 0x0B then .rtc .dl
  else if sel.toNat = 0x0C then .rtc .dh
  else .rsv

/-- What the decode takes from outside the word: the variant strap and, for an MBC3, the gate and the
selector (spec/30_encoding.md R104, R121). -/
inductive View where
  | noCart
  | basic
  | mbc1
  | mbc3 (ramTimerEnable : Bool) (sel : BitVec 4)
  deriving DecidableEq, Repr

/-! ## The transaction word (spec/30_encoding.md R101) -/

/-- `U ++ W ++ A ++ D`. -/
def pack (u w : Bool) (a : Addr) (d : Byte) : TWord :=
  BitVec.ofNat 26 (u.toNat * 2 ^ 25 + w.toNat * 2 ^ 24 + a.toNat * 2 ^ 8 + d.toNat)

/-- `T[25]`. -/
def TWord.u (t : TWord) : Bool := field t.toNat 25 25 == 1

/-- `T[24]`. -/
def TWord.w (t : TWord) : Bool := field t.toNat 24 24 == 1

/-- `T[23:8]`. -/
def TWord.a (t : TWord) : Addr := BitVec.ofNat 16 (field t.toNat 23 8)

/-- `T[7:0]`. -/
def TWord.d (t : TWord) : Byte := BitVec.ofNat 8 (field t.toNat 7 0)

/-! ## Address decode -/

/-- The windows of the bus (spec/30_encoding.md R103). -/
inductive Route where
  | rom
  | xram
  | wram
  | hram
  | svbk
  | openBus
  deriving DecidableEq, Repr

/-- `Route(a)`, first match wins (spec/45_bus_router_openbus_observer.md R242, spec/30_encoding.md R103). -/
def route (a : Addr) : Route :=
  if a.toNat ≤ 0x7FFF then .rom
  else if 0xA000 ≤ a.toNat ∧ a.toNat ≤ 0xBFFF then .xram
  else if 0xC000 ≤ a.toNat ∧ a.toNat ≤ 0xDFFF then .wram
  else if 0xFF80 ≤ a.toNat ∧ a.toNat ≤ 0xFFFE then .hram
  else if a.toNat = 0xFF70 then .svbk
  else .openBus

/-- A read of the ROM window (spec/30_encoding.md R104, R105). -/
def decodeRomRead (v : View) (u : Bool) (a : Addr) : Instr :=
  match v with
  | .noCart => .rdRomNocart u a
  | .basic => .rdRomBasic u a
  | .mbc1 => if field a.toNat 14 14 = 0 then .rdRom0Mbc1 u a else .rdRomXMbc1 u a
  | .mbc3 _ _ => if field a.toNat 14 14 = 0 then .rdRom0Mbc3 u a else .rdRomXMbc3 u a

/-- A read of the external-RAM window (spec/30_encoding.md R104, R110). -/
def decodeXramRead (v : View) (u : Bool) (a : Addr) : Instr :=
  match v with
  | .noCart => .rdXramNocart u a
  | .basic => .rdXramBasic u a
  | .mbc1 => .rdXramMbc1 u a
  | .mbc3 gate sel =>
    match mbc3Window gate sel with
    | .off => .rdXramMbc3Off u a
    | .ram => .rdXramMbc3Ram u a
    | .rtc _ => .rdRtcMbc3 u a
    | .rsv => .rdXramMbc3Rsv u a

/-- A read transaction (spec/30_encoding.md R103). -/
def decodeRead (v : View) (u : Bool) (a : Addr) : Instr :=
  match route a with
  | .rom => decodeRomRead v u a
  | .xram => decodeXramRead v u a
  | .wram => if field a.toNat 12 12 = 0 then .rdWram0 u a else .rdWramX u a
  | .hram => .rdHram u a
  | .svbk => .rdSvbk u
  | .openBus => if a.toNat = 0xFFFF then .rdFfff u else .rdOpen u a

/-- The MBC1 command windows, by `A[14:13]` (spec/30_encoding.md R106). -/
def decodeMbc1Command (u : Bool) (a : Addr) (d : Byte) : Instr :=
  match field a.toNat 14 13 with
  | 0 => .wrRamenMbc1 u a d
  | 1 => .wrRombMbc1 u a d
  | 2 => .wrRambMbc1 u a d
  | _ => .wrModeMbc1 u a d

/-- The MBC3 command windows, by `A[14:13]`, and the latch command by its data byte
(spec/30_encoding.md R106, R111). -/
def decodeMbc3Command (u : Bool) (a : Addr) (d : Byte) : Instr :=
  match field a.toNat 14 13 with
  | 0 => .wrRamenMbc3 u a d
  | 1 => .wrRombMbc3 u a d
  | 2 => .wrSelMbc3 u a d
  | _ =>
    if d.toNat = 0x00 then .wrLatch0Mbc3 u a
    else if d.toNat = 0x01 then .wrLatch1Mbc3 u a
    else .wrLatchXMbc3 u a d

/-- A write to the ROM window (spec/30_encoding.md R104, R106). -/
def decodeRomWrite (v : View) (u : Bool) (a : Addr) (d : Byte) : Instr :=
  match v with
  | .noCart => .wrRomNocart u a d
  | .basic => .wrRomBasic u a d
  | .mbc1 => decodeMbc1Command u a d
  | .mbc3 _ _ => decodeMbc3Command u a d

/-- A write to the external-RAM window (spec/30_encoding.md R104, R110). -/
def decodeXramWrite (v : View) (u : Bool) (a : Addr) (d : Byte) : Instr :=
  match v with
  | .noCart => .wrXramNocart u a d
  | .basic => .wrXramBasic u a d
  | .mbc1 => .wrXramMbc1 u a d
  | .mbc3 gate sel =>
    match mbc3Window gate sel with
    | .off => .wrXramMbc3Off u a d
    | .ram => .wrXramMbc3Ram u a d
    | .rtc .s => .wrRtcSMbc3 u a d
    | .rtc .m => .wrRtcMMbc3 u a d
    | .rtc .h => .wrRtcHMbc3 u a d
    | .rtc .dl => .wrRtcDlMbc3 u a d
    | .rtc .dh => .wrRtcDhMbc3 u a d
    | .rsv => .wrXramMbc3Rsv u a d

/-- A write transaction (spec/30_encoding.md R103). -/
def decodeWrite (v : View) (u : Bool) (a : Addr) (d : Byte) : Instr :=
  match route a with
  | .rom => decodeRomWrite v u a d
  | .xram => decodeXramWrite v u a d
  | .wram => if field a.toNat 12 12 = 0 then .wrWram0 u a d else .wrWramX u a d
  | .hram => .wrHram u a d
  | .svbk => .wrSvbk u d
  | .openBus => if a.toNat = 0xFFFF then .wrFfff u d else .wrOpen u a d

/-- The kind a transaction word is, total: exactly one kind for every word and view
(spec/30_encoding.md R122). The data field of a read is ignored (R101). -/
def decode (v : View) (t : TWord) : Instr :=
  if t.w then decodeWrite v t.u t.a t.d else decodeRead v t.u t.a

/-- Why a number is no transaction word. -/
inductive DecodeError where
  /-- A bit above bit 25 is set: a transaction word has 26 bits (spec/30_encoding.md R101). -/
  | notTwentySixBits
  deriving DecidableEq, Repr

/-- Decoding of any number, refusing by name what is no transaction word. -/
def decodeNat (v : View) (n : Nat) : Except DecodeError Instr :=
  if n < 2 ^ 26 then .ok (decode v (BitVec.ofNat 26 n)) else .error .notTwentySixBits

/-- The instruction whose bits are `w`, numbered as the opcode table numbers them, as the machine reads it
right after reset: with no cartridge attached (spec/70_reset_and_hazards.md R304). Log entry 1. -/
def decodeTableWord (_nbits w : Nat) : Option Instr :=
  match decodeNat .noCart w with
  | .ok i => some i
  | .error _ => none

/-! ## Encoding -/

/-- The transaction word of an instruction (spec/30_encoding.md R101). -/
def encode (i : Instr) : TWord := pack i.updateRtc i.isWrite i.addr i.data

/-- The window an MBC3 shows; none when no MBC3 is attached. -/
def viewWindow : View → Option Window
  | .mbc3 gate sel => some (mbc3Window gate sel)
  | _ => none

/-- An MBC3 is attached. -/
def isMbc3 : View → Bool
  | .mbc3 _ _ => true
  | _ => false

/-- The window shows an RTC register, whichever. -/
def isRtc : Option Window → Bool
  | some (.rtc _) => true
  | _ => false

/-- The conditions of the kind that are not in the word hold: the row's `variant` and `when`
(spec/30_encoding.md R122). -/
def Instr.applies (v : View) : Instr → Bool
  | .rdRomNocart _ _ => v == .noCart
  | .rdRomBasic _ _ => v == .basic
  | .rdRom0Mbc1 _ _ => v == .mbc1
  | .rdRomXMbc1 _ _ => v == .mbc1
  | .rdRom0Mbc3 _ _ => isMbc3 v
  | .rdRomXMbc3 _ _ => isMbc3 v
  | .rdXramNocart _ _ => v == .noCart
  | .rdXramBasic _ _ => v == .basic
  | .rdXramMbc1 _ _ => v == .mbc1
  | .rdXramMbc3Off _ _ => viewWindow v == some .off
  | .rdXramMbc3Ram _ _ => viewWindow v == some .ram
  | .rdRtcMbc3 _ _ => isRtc (viewWindow v)
  | .rdXramMbc3Rsv _ _ => viewWindow v == some .rsv
  | .rdWram0 _ _ => true
  | .rdWramX _ _ => true
  | .rdFfff _ => true
  | .rdHram _ _ => true
  | .rdSvbk _ => true
  | .rdOpen _ _ => true
  | .wrRomNocart _ _ _ => v == .noCart
  | .wrRomBasic _ _ _ => v == .basic
  | .wrRamenMbc1 _ _ _ => v == .mbc1
  | .wrRombMbc1 _ _ _ => v == .mbc1
  | .wrRambMbc1 _ _ _ => v == .mbc1
  | .wrModeMbc1 _ _ _ => v == .mbc1
  | .wrRamenMbc3 _ _ _ => isMbc3 v
  | .wrRombMbc3 _ _ _ => isMbc3 v
  | .wrSelMbc3 _ _ _ => isMbc3 v
  | .wrLatch0Mbc3 _ _ => isMbc3 v
  | .wrLatch1Mbc3 _ _ => isMbc3 v
  | .wrLatchXMbc3 _ _ _ => isMbc3 v
  | .wrXramNocart _ _ _ => v == .noCart
  | .wrXramBasic _ _ _ => v == .basic
  | .wrXramMbc1 _ _ _ => v == .mbc1
  | .wrXramMbc3Off _ _ _ => viewWindow v == some .off
  | .wrXramMbc3Ram _ _ _ => viewWindow v == some .ram
  | .wrRtcSMbc3 _ _ _ => viewWindow v == some (.rtc .s)
  | .wrRtcMMbc3 _ _ _ => viewWindow v == some (.rtc .m)
  | .wrRtcHMbc3 _ _ _ => viewWindow v == some (.rtc .h)
  | .wrRtcDlMbc3 _ _ _ => viewWindow v == some (.rtc .dl)
  | .wrRtcDhMbc3 _ _ _ => viewWindow v == some (.rtc .dh)
  | .wrXramMbc3Rsv _ _ _ => viewWindow v == some .rsv
  | .wrWram0 _ _ _ => true
  | .wrWramX _ _ _ => true
  | .wrFfff _ _ => true
  | .wrHram _ _ _ => true
  | .wrSvbk _ _ => true
  | .wrOpen _ _ _ => true

/-! ## The opcode table -/

/-- The mnemonic of the instruction's row (spec/30_encoding.md R124). -/
def Instr.mnemonic : Instr → String
  | .rdRomNocart _ _ => "RD.ROM.NOCART"
  | .rdRomBasic _ _ => "RD.ROM.BASIC"
  | .rdRom0Mbc1 _ _ => "RD.ROM0.MBC1"
  | .rdRomXMbc1 _ _ => "RD.ROMX.MBC1"
  | .rdRom0Mbc3 _ _ => "RD.ROM0.MBC3"
  | .rdRomXMbc3 _ _ => "RD.ROMX.MBC3"
  | .rdXramNocart _ _ => "RD.XRAM.NOCART"
  | .rdXramBasic _ _ => "RD.XRAM.BASIC"
  | .rdXramMbc1 _ _ => "RD.XRAM.MBC1"
  | .rdXramMbc3Off _ _ => "RD.XRAM.MBC3.OFF"
  | .rdXramMbc3Ram _ _ => "RD.XRAM.MBC3.RAM"
  | .rdRtcMbc3 _ _ => "RD.RTC.MBC3"
  | .rdXramMbc3Rsv _ _ => "RD.XRAM.MBC3.RSV"
  | .rdWram0 _ _ => "RD.WRAM0"
  | .rdWramX _ _ => "RD.WRAMX"
  | .rdFfff _ => "RD.FFFF"
  | .rdHram _ _ => "RD.HRAM"
  | .rdSvbk _ => "RD.SVBK"
  | .rdOpen _ _ => "RD.OPEN"
  | .wrRomNocart _ _ _ => "WR.ROM.NOCART"
  | .wrRomBasic _ _ _ => "WR.ROM.BASIC"
  | .wrRamenMbc1 _ _ _ => "WR.RAMEN.MBC1"
  | .wrRombMbc1 _ _ _ => "WR.ROMB.MBC1"
  | .wrRambMbc1 _ _ _ => "WR.RAMB.MBC1"
  | .wrModeMbc1 _ _ _ => "WR.MODE.MBC1"
  | .wrRamenMbc3 _ _ _ => "WR.RAMEN.MBC3"
  | .wrRombMbc3 _ _ _ => "WR.ROMB.MBC3"
  | .wrSelMbc3 _ _ _ => "WR.SEL.MBC3"
  | .wrLatch0Mbc3 _ _ => "WR.LATCH0.MBC3"
  | .wrLatch1Mbc3 _ _ => "WR.LATCH1.MBC3"
  | .wrLatchXMbc3 _ _ _ => "WR.LATCHX.MBC3"
  | .wrXramNocart _ _ _ => "WR.XRAM.NOCART"
  | .wrXramBasic _ _ _ => "WR.XRAM.BASIC"
  | .wrXramMbc1 _ _ _ => "WR.XRAM.MBC1"
  | .wrXramMbc3Off _ _ _ => "WR.XRAM.MBC3.OFF"
  | .wrXramMbc3Ram _ _ _ => "WR.XRAM.MBC3.RAM"
  | .wrRtcSMbc3 _ _ _ => "WR.RTC.S.MBC3"
  | .wrRtcMMbc3 _ _ _ => "WR.RTC.M.MBC3"
  | .wrRtcHMbc3 _ _ _ => "WR.RTC.H.MBC3"
  | .wrRtcDlMbc3 _ _ _ => "WR.RTC.DL.MBC3"
  | .wrRtcDhMbc3 _ _ _ => "WR.RTC.DH.MBC3"
  | .wrXramMbc3Rsv _ _ _ => "WR.XRAM.MBC3.RSV"
  | .wrWram0 _ _ _ => "WR.WRAM0"
  | .wrWramX _ _ _ => "WR.WRAMX"
  | .wrFfff _ _ => "WR.FFFF"
  | .wrHram _ _ _ => "WR.HRAM"
  | .wrSvbk _ _ => "WR.SVBK"
  | .wrOpen _ _ _ => "WR.OPEN"

/-- The `variant` entry of a row. -/
inductive TableVariant where
  | any
  | noCart
  | basic
  | mbc1
  | mbc3
  deriving DecidableEq, Repr

/-- A row of spec/opcode_table.json: the fixed bits as (high bit, low bit, value), the variant it needs and
the range or ranges of `sel` it needs with the gate open, `gateOpen = some false` for the gate closed. -/
structure TableRow where
  mnemonic : String
  fixed : List (Nat × Nat × Nat)
  variant : TableVariant
  gateOpen : Option Bool := none
  sels : List (Nat × Nat) := [(0, 15)]
  deriving DecidableEq, Repr

/-- The word has the row's fixed bits. -/
def TableRow.matchesWord (r : TableRow) (t : TWord) : Bool :=
  r.fixed.all fun f => field t.toNat f.1 f.2.1 == f.2.2

/-- The row's `variant` and `when` hold. -/
def TableRow.appliesTo (r : TableRow) : View → Bool
  | .noCart => r.variant == .any || r.variant == .noCart
  | .basic => r.variant == .any || r.variant == .basic
  | .mbc1 => r.variant == .any || r.variant == .mbc1
  | .mbc3 gate sel =>
    (r.variant == .any || r.variant == .mbc3) &&
      (r.gateOpen == none || r.gateOpen == some gate) &&
      r.sels.any fun p => p.1 ≤ sel.toNat && sel.toNat ≤ p.2

/-- The read rows of the cartridge windows, in the table's order. -/
def tableReads0 : List TableRow :=
  [ ⟨"RD.ROM.NOCART", [(24, 23, 0)], .noCart, none, [(0, 15)]⟩,
    ⟨"RD.ROM.BASIC", [(24, 23, 0)], .basic, none, [(0, 15)]⟩,
    ⟨"RD.ROM0.MBC1", [(24, 22, 0)], .mbc1, none, [(0, 15)]⟩,
    ⟨"RD.ROMX.MBC1", [(24, 22, 1)], .mbc1, none, [(0, 15)]⟩,
    ⟨"RD.ROM0.MBC3", [(24, 22, 0)], .mbc3, none, [(0, 15)]⟩,
    ⟨"RD.ROMX.MBC3", [(24, 22, 1)], .mbc3, none, [(0, 15)]⟩,
    ⟨"RD.XRAM.NOCART", [(24, 21, 5)], .noCart, none, [(0, 15)]⟩,
    ⟨"RD.XRAM.BASIC", [(24, 21, 5)], .basic, none, [(0, 15)]⟩,
    ⟨"RD.XRAM.MBC1", [(24, 21, 5)], .mbc1, none, [(0, 15)]⟩,
    ⟨"RD.XRAM.MBC3.OFF", [(24, 21, 5)], .mbc3, some false, [(0, 15)]⟩,
    ⟨"RD.XRAM.MBC3.RAM", [(24, 21, 5)], .mbc3, some true, [(0, 3)]⟩,
    ⟨"RD.RTC.MBC3", [(24, 21, 5)], .mbc3, some true, [(8, 12)]⟩,
    ⟨"RD.XRAM.MBC3.RSV", [(24, 21, 5)], .mbc3, some true, [(4, 7), (13, 15)]⟩ ]

/-- The other read rows. -/
def tableReads1 : List TableRow :=
  [ ⟨"RD.WRAM0", [(24, 20, 12)], .any, none, [(0, 15)]⟩,
    ⟨"RD.WRAMX", [(24, 20, 13)], .any, none, [(0, 15)]⟩,
    ⟨"RD.FFFF", [(24, 8, 65535)], .any, none, [(0, 15)]⟩,
    ⟨"RD.HRAM", [(24, 15, 511)], .any, none, [(0, 15)]⟩,
    ⟨"RD.SVBK", [(24, 8, 65392)], .any, none, [(0, 15)]⟩,
    ⟨"RD.OPEN", [(24, 24, 0)], .any, none, [(0, 15)]⟩ ]

/-- The command-window write rows. -/
def tableWrites0 : List TableRow :=
  [ ⟨"WR.ROM.NOCART", [(24, 23, 2)], .noCart, none, [(0, 15)]⟩,
    ⟨"WR.ROM.BASIC", [(24, 23, 2)], .basic, none, [(0, 15)]⟩,
    ⟨"WR.RAMEN.MBC1", [(24, 21, 8)], .mbc1, none, [(0, 15)]⟩,
    ⟨"WR.ROMB.MBC1", [(24, 21, 9)], .mbc1, none, [(0, 15)]⟩,
    ⟨"WR.RAMB.MBC1", [(24, 21, 10)], .mbc1, none, [(0, 15)]⟩,
    ⟨"WR.MODE.MBC1", [(24, 21, 11)], .mbc1, none, [(0, 15)]⟩,
    ⟨"WR.RAMEN.MBC3", [(24, 21, 8)], .mbc3, none, [(0, 15)]⟩,
    ⟨"WR.ROMB.MBC3", [(24, 21, 9)], .mbc3, none, [(0, 15)]⟩,
    ⟨"WR.SEL.MBC3", [(24, 21, 10)], .mbc3, none, [(0, 15)]⟩,
    ⟨"WR.LATCH0.MBC3", [(7, 0, 0), (24, 21, 11)], .mbc3, none, [(0, 15)]⟩,
    ⟨"WR.LATCH1.MBC3", [(7, 0, 1), (24, 21, 11)], .mbc3, none, [(0, 15)]⟩,
    ⟨"WR.LATCHX.MBC3", [(24, 21, 11)], .mbc3, none, [(0, 15)]⟩ ]

/-- The external-RAM window write rows. -/
def tableWrites1 : List TableRow :=
  [ ⟨"WR.XRAM.NOCART", [(24, 21, 13)], .noCart, none, [(0, 15)]⟩,
    ⟨"WR.XRAM.BASIC", [(24, 21, 13)], .basic, none, [(0, 15)]⟩,
    ⟨"WR.XRAM.MBC1", [(24, 21, 13)], .mbc1, none, [(0, 15)]⟩,
    ⟨"WR.XRAM.MBC3.OFF", [(24, 21, 13)], .mbc3, some false, [(0, 15)]⟩,
    ⟨"WR.XRAM.MBC3.RAM", [(24, 21, 13)], .mbc3, some true, [(0, 3)]⟩,
    ⟨"WR.RTC.S.MBC3", [(24, 21, 13)], .mbc3, some true, [(8, 8)]⟩,
    ⟨"WR.RTC.M.MBC3", [(24, 21, 13)], .mbc3, some true, [(9, 9)]⟩,
    ⟨"WR.RTC.H.MBC3", [(24, 21, 13)], .mbc3, some true, [(10, 10)]⟩,
    ⟨"WR.RTC.DL.MBC3", [(24, 21, 13)], .mbc3, some true, [(11, 11)]⟩,
    ⟨"WR.RTC.DH.MBC3", [(24, 21, 13)], .mbc3, some true, [(12, 12)]⟩,
    ⟨"WR.XRAM.MBC3.RSV", [(24, 21, 13)], .mbc3, some true, [(4, 7), (13, 15)]⟩ ]

/-- The other write rows. -/
def tableWrites2 : List TableRow :=
  [ ⟨"WR.WRAM0", [(24, 20, 28)], .any, none, [(0, 15)]⟩,
    ⟨"WR.WRAMX", [(24, 20, 29)], .any, none, [(0, 15)]⟩,
    ⟨"WR.FFFF", [(24, 8, 131071)], .any, none, [(0, 15)]⟩,
    ⟨"WR.HRAM", [(24, 15, 1023)], .any, none, [(0, 15)]⟩,
    ⟨"WR.SVBK", [(24, 8, 130928)], .any, none, [(0, 15)]⟩,
    ⟨"WR.OPEN", [(24, 24, 1)], .any, none, [(0, 15)]⟩ ]

/-- The opcode table, in ascending `order`. -/
def opcodeTable : List TableRow :=
  tableReads0 ++ tableReads1 ++ tableWrites0 ++ tableWrites1 ++ tableWrites2

/-- The kind the table gives: the first row in order whose conditions hold and whose pattern matches
(spec/30_encoding.md R122). -/
def tableKind (v : View) (t : TWord) : Option String :=
  (opcodeTable.find? fun r => r.appliesTo v && r.matchesWord t).map (·.mnemonic)

end Sys2Proof
end

