-- ==== Sys2Proof/Config.lean ====
section
/-! DEFINITION. What an implementation fixes and the spec leaves open: the model parameters of
spec/00_scope.md R7 that are functions or numbers no source gives. None has a body, so a theorem that
holds of the model holds whatever they are. -/

namespace Sys2Proof

/-- The strap `VARIANT` (spec/00_scope.md R7). -/
inductive Variant where
  | basic
  | mbc1
  | mbc3
  deriving DecidableEq, Repr

/-- The controller commands, as `ACK_CTRL` names them (spec/30_encoding.md R106,
spec/45_bus_router_openbus_observer.md R256). -/
inductive Command where
  | ramen
  | romb
  | ramb
  | mode
  | sel
  | latch
  deriving DecidableEq, Repr

/-- FREE VALUE. `HOST_HZ - 1`: the host clock's ticks to the second, less one, so that `HOST_HZ >= 1`
(spec/00_scope.md R7, D4). Log entry 4. -/
opaque Config.hostHzLessOne : Nat

/-- FREE VALUE. `ACK_CTRL(variant, command, d, stored)`: the byte an MBC1 or MBC3 command write returns
(spec/45_bus_router_openbus_observer.md R256, D15). Log entry 5. -/
opaque Config.ackCtrl : Variant → Command → Byte → Byte → Byte

/-- FREE VALUE. `OBS_READ(a, v)` of the read observer with the given number: the byte the caller sees in
place of `v` (spec/45_bus_router_openbus_observer.md R251, D26). Log entry 6. -/
opaque Config.readObserver : Nat → Addr → Byte → Byte

/-- `HOST_HZ`, at least 1 (spec/43_rtc.md R201). -/
def Config.hostHz : Nat := Config.hostHzLessOne + 1

end Sys2Proof
end

