-- ==== Sys2Proof/Machine/State.lean ====
section
/-! DEFINITION. The state of the block, why a step stops, and the state after reset. Everything is plain
data. The shape follows spec/10_state.md R52; the fields after `svbk` in `State` are the straps and observers
of spec/10_state.md R41, the Executive's handle of spec/45_bus_router_openbus_observer.md R261, and the
model's own ports (log entries 2, 12, 13). -/

namespace Sys2Proof.Machine

/-! ## Arrays -/

/-- An array of bytes, sparse: (offset, byte) pairs in rising order of offset, none equal to the byte an
unlisted offset reads as (`Memory.unlisted`, in Machine/Ops.lean). -/
abbrev Memory := List Host.Cell

/-- The four arrays of the block (spec/00_scope.md R9). -/
inductive ArrayName where
  | rom
  | xram
  | wram
  | hram
  deriving DecidableEq, Repr

/-! ## Cartridge (spec/10_state.md R22 to R36) -/

/-- The parsed cartridge header: configuration, not changed while the cartridge lives (spec/10_state.md R22). -/
structure Header where
  /-- At most 16 bytes, trailing NULs trimmed; read by no rule of the bus. -/
  title : List Byte
  cgbFlag : Byte
  cartridgeType : Byte
  romSize : Byte
  ramSize : Byte
  headerChecksum : Byte
  deriving DecidableEq, Repr

/-- The MBC1 registers (spec/10_state.md R26 to R29). -/
structure Mbc1 where
  ramEnable : Bool
  romBank : BitVec 5
  ramBank : BitVec 2
  mode : BitVec 1
  deriving DecidableEq, Repr

/-- Five RTC registers, live or latched (spec/10_state.md R33, R34). -/
structure Rtc where
  s : Byte
  m : Byte
  h : Byte
  dl : Byte
  dh : Byte
  deriving DecidableEq, Repr

/-- The MBC3 registers (spec/10_state.md R30 to R36). -/
structure Mbc3 where
  ramTimerEnable : Bool
  romBank : BitVec 7
  /-- The source's `ramBankOrRtcSelect`. -/
  sel : BitVec 4
  /-- `S, M, H, DL, DH`. -/
  live : Rtc
  /-- `LS, LM, LH, LDL, LDH`. -/
  latched : Rtc
  /-- 0 idle, 1 armed. -/
  latchState : BitVec 1
  /-- Host ticks, unbounded. -/
  lastUpdateTime : Nat
  deriving DecidableEq, Repr

/-- The controller of a cartridge, by variant; Basic has no control state (spec/10_state.md R25). -/
inductive Controller where
  | basic
  | mbc1 (r : Mbc1)
  | mbc3 (r : Mbc3)
  deriving DecidableEq, Repr

/-- A finalized cartridge (spec/10_state.md R22 to R24, R52). -/
structure Cart where
  header : Header
  rom : Memory
  xram : Memory
  ctrl : Controller
  deriving DecidableEq, Repr

/-! ## What comes in from outside -/

/-- One transaction as the bus master issues it: the word, whatever else the `AccessRules` bag holds
besides `updateRTC` (spec/30_encoding.md R102; the source assigns the other options no names or bits, so they are
numbers here), and the host-clock sample taken for it (spec/43_rtc.md R201). -/
structure Request where
  word : TWord
  otherRules : List Nat
  now : Nat
  deriving DecidableEq, Repr

/-- What a save file restores of an RTC: the parameters `RTC_INIT`, `RTC_LATCH_INIT`, `T_INIT`
(spec/00_scope.md R7, spec/60_exceptions.md R291). -/
structure RtcSave where
  live : Rtc
  latched : Rtc
  time : Nat
  deriving DecidableEq, Repr

/-- What the persistence collaborator restores after finalize: the external RAM in offset order and, for a
cartridge with a timer, the RTC (spec/60_exceptions.md R291, R292). -/
structure Save where
  xram : List Byte
  rtc : Option RtcSave
  deriving DecidableEq, Repr

/-- What the host does between transactions (spec/60_exceptions.md R286, spec/70_reset_and_hazards.md R300 to
R306, spec/45_bus_router_openbus_observer.md R261). -/
inductive HostMove where
  /-- Load a ROM file, restore a save if there is one, and attach the cartridge; `now` is the host clock at
  finalize. -/
  | load (file : List Byte) (save : Option Save) (now : Nat)
  /-- Attach a cartridge that is already finalized, in the state it carries. -/
  | attach (cart : Cart)
  /-- Attach nothing. -/
  | detach
  /-- Install the read observer with this number, or none. -/
  | installReadObserver (o : Option Nat)
  /-- Install the write observer with this number, or none. -/
  | installWriteObserver (o : Option Nat)
  /-- The Executive's `use(ctx)`: this context (`true`) or none. -/
  | useContext (active : Bool)
  /-- The Executive's `tick()`. -/
  | tick
  deriving DecidableEq, Repr

/-- One thing that happens to the block. -/
inductive Input where
  | transaction (r : Request)
  | host (m : HostMove)
  deriving DecidableEq, Repr

/-! ## What goes out -/

/-- A call of an observer with its arguments (spec/45_bus_router_openbus_observer.md R251, R252). -/
inductive ObserverCall where
  | onRead (observer : Nat) (a : Addr) (value : Byte)
  | onWrite (observer : Nat) (a : Addr) (attempted actual : Byte)
  deriving DecidableEq, Repr

/-- The error kinds, complete: values handed to the host, none of which stops the block
(spec/60_exceptions.md R271). -/
inductive HostError where
  | malformedHeader
  | headerMismatch
  | ioFailure
  | busMisuse
  deriving DecidableEq, Repr

/-! ## The state -/

/-- The whole state (spec/10_state.md R52). The strap `CGB` and every size are computed from `cart`
(spec/00_scope.md R7), so they have no field. -/
structure State where
  /-- The attached cartridge; `none` is `CART_PRESENT = false`. -/
  cart : Option Cart
  /-- Work RAM (spec/10_state.md R38). -/
  wram : Memory
  /-- High RAM (spec/10_state.md R39). -/
  hram : Memory
  /-- SVBK, of which only bits 2 to 0 are ever observed (spec/10_state.md R40). -/
  svbk : Byte
  /-- The installed read observer, `OBS_READ` (spec/10_state.md R41). -/
  readObserver : Option Nat
  /-- The installed write observer, `OBS_WRITE` (spec/10_state.md R41). -/
  writeObserver : Option Nat
  /-- The model parameter `HOST_HZ` (spec/00_scope.md R7). -/
  hostHz : Nat
  /-- Whether the Executive's active context is this one (spec/45_bus_router_openbus_observer.md R261). -/
  executiveActive : Bool
  /-- The model's own: what is still to happen to the block, first first (log entry 2). -/
  queue : List Input
  /-- The model's own: the host-clock sample of the transaction in progress (log entry 13). -/
  now : Nat
  /-- The model's own: the byte the last transaction returned (log entry 12). -/
  returned : Option Byte
  /-- The model's own: the observer call the last transaction made (log entry 12). -/
  observed : Option ObserverCall
  /-- The model's own: the error the last host move reported (log entry 12). -/
  report : Option HostError
  deriving DecidableEq, Repr

/-! ## Why a step stops -/

/-- Faults. The spec gives the block none ("Bus operations themselves never fail",
spec/45_bus_router_openbus_observer.md R259); the one here guards the arrays. -/
inductive Fault where
  /-- Raised by an array access whose offset lies outside the array. The spec's rules keep every offset in
  range, so no step from a state that meets `State.Inv` raises it. Safe: the model stops. Log entry 8. -/
  | offsetOutside (array : ArrayName) (offset : Nat)
  deriving DecidableEq, Repr

/-- Refusals: no meaning is given. -/
inductive Refusal where
  /-- Raised by an arm of `exec` whose instruction has no meaning yet. Safe. -/
  | notModelled (mnemonic : String)
  /-- Raised by the RTC advance when the host clock runs backwards: "a model refuses such an input"
  (spec/43_rtc.md R209). Safe: nothing is claimed of such a run. Log entry 7. -/
  | hostClockBackwards
  /-- Raised by a meaning in a state where the decode never selects its kind (another variant attached, or
  another window shown). No step raises it. Safe. Log entry 8. -/
  | kindNotSelected
  /-- Raised by a host move whose data lie outside the legal values of spec/00_scope.md R7 (a save of the wrong
  length, RTC registers out of range) and by attaching a cartridge that no finalize can have made, such as one whose
  header is not its ROM's or has a wrong checksum (spec/10_state.md R22). Safe. Log entry 10. -/
  | illegalHostInput
  deriving DecidableEq, Repr

/-! ## Reset -/

/-- The context before the first attach: no cartridge, DMG mode, zeroed memories, no observers
(spec/70_reset_and_hazards.md R304, R310). -/
def State.reset : State where
  cart := none
  wram := []
  hram := []
  svbk := 0x00#8
  readObserver := none
  writeObserver := none
  hostHz := Config.hostHz
  executiveActive := false
  queue := []
  now := 0
  returned := none
  observed := none
  report := none

end Sys2Proof.Machine
end

