-- ==== Sys2Proof/Machine/Flags.lean ====
section
/-! DEFINITION. The flags of the block: halt and overflow in the day-high register, the day counter they
share it with, and the two RAM gates (spec/10_state.md R42, spec/30_encoding.md R113). -/

namespace Sys2Proof.Machine

/-- `DH[6]`, the halt flag (spec/30_encoding.md R113). -/
def dhHalt (dh : Byte) : Bool := dh.getLsbD 6

/-- `DH[7]`, the sticky overflow flag (spec/30_encoding.md R113). -/
def dhOverflow (dh : Byte) : Bool := dh.getLsbD 7

/-- The mask of the meaningful bits of `DH` (spec/30_encoding.md R113). -/
def dhMask : Byte := 0xC1#8

/-- `D = DL + 256 * DH[0]`, 0 to 511 (spec/10_state.md R33). -/
def Rtc.dayCounter (r : Rtc) : Nat := r.dl.toNat + 256 * field r.dh.toNat 0 0

/-- `DH` after the day count has come to `days`, unbounded: bit 0 is bit 8 of the count, bit 7 is set when
the count passed 511 and else kept, the other bits are kept (spec/43_rtc.md R203, R206, R207). -/
def dhAfterDays (dh : Byte) (days : Nat) : Byte :=
  (dh &&& 0xFE#8) ||| BitVec.ofNat 8 (days / 256 % 2) ||| (if 511 < days then 0x80#8 else 0x00#8)

/-- The compare of both RAM-enable commands: `(D & 0x0F) == 0x0A` (spec/30_encoding.md R108). -/
def enableCompare (d : Byte) : Bool := (d &&& 0x0F#8) == 0x0A#8

/-- `zext_8` of a flag (spec/00_scope.md R9). -/
def flagByte (b : Bool) : Byte := if b then 0x01#8 else 0x00#8

end Sys2Proof.Machine
end

