-- ==== Sys2Proof/Machine/Operands.lean ====
section
/-! DEFINITION. Operand forms: the sizes the header gives, the values command writes store, the effective
banks and the array offsets (spec/30_encoding.md R107 to R109, R115, R117 to R120; spec/41_mbc1.md R155 to
R161; spec/42_mbc3.md R177, R181; spec/44_memory_wram_hram_svbk.md R221). -/

namespace Sys2Proof.Machine

/-- `OPEN_BUS` (spec/00_scope.md R9). -/
def openBus : Byte := 0xFF#8

/-! ## Sizes -/

/-- `ROM_LEN = 0x8000 << romSize` (spec/30_encoding.md R119). -/
def Header.romLen (h : Header) : Nat := 0x8000 <<< h.romSize.toNat

/-- `ROM_BANKS = 2 << romSize` (spec/30_encoding.md R119). -/
def Header.romBanks (h : Header) : Nat := 2 <<< h.romSize.toNat

/-- `XRAM_LEN` by `ramSize` code (spec/30_encoding.md R120); an unlisted code never reaches the bus (R116). -/
def Header.xramLen (h : Header) : Nat :=
  match h.ramSize.toNat with
  | 0x02 => 0x2000
  | 0x03 => 0x8000
  | 0x04 => 0x20000
  | 0x05 => 0x10000
  | _ => 0

/-- `XRAM_BANKS = XRAM_LEN / 0x2000` (spec/30_encoding.md R120). -/
def Header.xramBanks (h : Header) : Nat := h.xramLen / 0x2000

/-- `supportsCGB()`: the whole `cgbFlag` byte is 0x80 or 0xC0 (spec/30_encoding.md R117). -/
def Header.supportsCgb (h : Header) : Bool := h.cgbFlag == 0x80#8 || h.cgbFlag == 0xC0#8

/-- A row of the cartridge-type table (spec/30_encoding.md R118). -/
structure TypeLine where
  variant : Variant
  ramLine : Bool
  battery : Bool
  timer : Bool
  deriving DecidableEq, Repr

/-- The recognized `cartridgeType` codes (spec/30_encoding.md R118). -/
def typeLine (code : Byte) : Option TypeLine :=
  match code.toNat with
  | 0x00 => some ⟨.basic, false, false, false⟩
  | 0x01 => some ⟨.basic, true, false, false⟩
  | 0x02 => some ⟨.basic, true, true, false⟩
  | 0x0F => some ⟨.mbc3, false, true, true⟩
  | 0x10 => some ⟨.mbc3, true, true, true⟩
  | 0x11 => some ⟨.mbc3, false, false, false⟩
  | 0x12 => some ⟨.mbc3, true, false, false⟩
  | 0x13 => some ⟨.mbc3, true, true, false⟩
  | 0x19 => some ⟨.mbc1, false, false, false⟩
  | 0x1A => some ⟨.mbc1, true, false, false⟩
  | 0x1B => some ⟨.mbc1, true, true, false⟩
  | _ => none

/-- The strap `HAS_BATTERY` (spec/00_scope.md R7). -/
def Header.hasBattery (h : Header) : Bool := (typeLine h.cartridgeType).any (·.battery)

/-- The strap `HAS_TIMER` (spec/00_scope.md R7). -/
def Header.hasTimer (h : Header) : Bool := (typeLine h.cartridgeType).any (·.timer)

/-- The variant a controller belongs to. -/
def Controller.variant : Controller → Variant
  | .basic => .basic
  | .mbc1 _ => .mbc1
  | .mbc3 _ => .mbc3

/-- The strap `CGB`: a cartridge is attached and declares support (spec/30_encoding.md R117,
spec/70_reset_and_hazards.md R304). -/
def State.cgb (s : State) : Bool := s.cart.any (·.header.supportsCgb)

/-- `WRAM_LEN` (spec/00_scope.md R7). -/
def wramLen (cgb : Bool) : Nat := if cgb then 0x8000 else 0x2000

/-- `HRAM_LEN` (spec/00_scope.md R7). -/
def hramLen : Nat := 127

/-! ## Values stored by command writes (spec/30_encoding.md R107, R109) -/

/-- `D & 0x1F`, then 0 promoted to 1 (spec/41_mbc1.md R151). -/
def mbc1RomBankOf (d : Byte) : BitVec 5 :=
  let t := d.setWidth 5
  if t = 0#5 then 1#5 else t

/-- `D & 0x03` (spec/41_mbc1.md R152). -/
def mbc1RamBankOf (d : Byte) : BitVec 2 := d.setWidth 2

/-- `D & 0x01` (spec/41_mbc1.md R153). -/
def mbc1ModeOf (d : Byte) : BitVec 1 := d.setWidth 1

/-- `D & 0x7F`, then 0 promoted to 1 (spec/42_mbc3.md R171). -/
def mbc3RomBankOf (d : Byte) : BitVec 7 :=
  let t := d.setWidth 7
  if t = 0#7 then 1#7 else t

/-- `D & 0x0F` (spec/42_mbc3.md R172). -/
def mbc3SelOf (d : Byte) : BitVec 4 := d.setWidth 4

/-- What a write of an RTC register stores: `mod 60`, `mod 60`, `mod 24`, the byte, the byte under 0xC1
(spec/42_mbc3.md R186 to R190). -/
def rtcWriteValue (r : RtcReg) (d : Byte) : Byte :=
  match r with
  | .s => BitVec.ofNat 8 (d.toNat % 60)
  | .m => BitVec.ofNat 8 (d.toNat % 60)
  | .h => BitVec.ofNat 8 (d.toNat % 24)
  | .dl => d
  | .dh => d &&& dhMask

/-- `wramBank`, the field `svbk[2:0]` (spec/30_encoding.md R112). -/
def svbkIndex (svbk : Byte) : BitVec 3 := svbk.setWidth 3

/-- The SVBK register as it reads in CGB mode: `0xF8 | svbk[2:0]` (spec/30_encoding.md R112). -/
def svbkRead (svbk : Byte) : Byte := 0xF8#8 ||| (svbk &&& 0x07#8)

/-- `(svbk & 0xF8) | (d & 0x07)` (spec/44_memory_wram_hram_svbk.md R229). -/
def svbkWrite (svbk d : Byte) : Byte := (svbk &&& 0xF8#8) ||| (d &&& 0x07#8)

/-! ## Offsets (spec/20_memory.md R71 to R74, spec/30_encoding.md R115) -/

/-- The relative address `a - base`. -/
def rel (a : Addr) (base : Nat) : Nat := a.toNat - base

/-- `bank * 0x4000 + (a & 0x3FFF)` (spec/20_memory.md R71). -/
def romOffset (bank : Nat) (a : Addr) : Nat := bank * 0x4000 + field a.toNat 13 0

/-- `raw & (ROM_BANKS - 1)` (spec/41_mbc1.md R157). -/
def maskBank (raw banks : Nat) : Nat := raw &&& (banks - 1)

/-- `Mbc1Bank0()` (spec/41_mbc1.md R155). -/
def mbc1Bank0 (r : Mbc1) (banks : Nat) : Nat :=
  if r.mode = 0#1 then 0 else maskBank (r.ramBank.toNat <<< 5) banks

/-- `Mbc1BankX()` (spec/41_mbc1.md R156). -/
def mbc1BankX (r : Mbc1) (banks : Nat) : Nat :=
  maskBank ((r.ramBank.toNat <<< 5) ||| r.romBank.toNat) banks

/-- `Mbc1RamBank()` (spec/41_mbc1.md R159). -/
def mbc1RamBank (r : Mbc1) (xramLen : Nat) : Nat :=
  if r.mode = 1#1 ∧ 0x2000 < xramLen then r.ramBank.toNat else 0

/-- The external-RAM offset of an MBC1 access (spec/41_mbc1.md R161). -/
def mbc1RamOffset (r : Mbc1) (xramLen : Nat) (a : Addr) : Nat :=
  mbc1RamBank r xramLen * 0x2000 + rel a 0xA000

/-- The effective bank of the MBC3 switchable region (spec/42_mbc3.md R177). -/
def mbc3BankX (r : Mbc3) (banks : Nat) : Nat := maskBank r.romBank.toNat banks

/-- `Mbc3RamOffset(rel)`, `none` for NONE (spec/42_mbc3.md R181). -/
def mbc3RamOffset (r : Mbc3) (xramBanks : Nat) (a : Addr) : Option Nat :=
  if xramBanks = 0 then none else some (r.sel.toNat % xramBanks * 0x2000 + rel a 0xA000)

/-- `WramBank()` (spec/44_memory_wram_hram_svbk.md R221). -/
def wramBank (cgb : Bool) (svbk : Byte) : Nat :=
  if cgb then (if svbkIndex svbk = 0#3 then 1 else (svbkIndex svbk).toNat) else 1

/-- `WramBank() * 0x1000 + (rel & 0x0FFF)` (spec/44_memory_wram_hram_svbk.md R224). -/
def wramXOffset (cgb : Bool) (svbk : Byte) (a : Addr) : Nat :=
  wramBank cgb svbk * 0x1000 + field (rel a 0xC000) 11 0

end Sys2Proof.Machine
end

