-- ==== Sys2Proof/Machine/Rtc.lean ====
section
/-! DEFINITION. The RTC counter engine (spec/43_rtc.md). -/

namespace Sys2Proof.Machine

/-- The registers are in their canonical range (spec/10_state.md R37). -/
def Rtc.canonical (r : Rtc) : Bool :=
  r.s.toNat ≤ 59 && r.m.toNat ≤ 59 && r.h.toNat ≤ 23 && (r.dh &&& 0x3E#8) == 0x00#8

/-- `S + 60*M + 3600*H + 86400*D` (spec/43_rtc.md R203). -/
def Rtc.seconds (r : Rtc) : Nat :=
  r.s.toNat + 60 * r.m.toNat + 3600 * r.h.toNat + 86400 * r.dayCounter

/-- `n` whole seconds added, with carries (spec/43_rtc.md R203). -/
def Rtc.addSeconds (r : Rtc) (n : Nat) : Rtc :=
  let t := r.seconds + n
  let days := t / 86400
  { s := BitVec.ofNat 8 (t % 60)
    m := BitVec.ofNat 8 (t / 60 % 60)
    h := BitVec.ofNat 8 (t / 3600 % 24)
    dl := BitVec.ofNat 8 (days % 256)
    dh := dhAfterDays r.dh days }

/-- One second added as ripple carries (spec/43_rtc.md R212). No meaning uses it. -/
def Rtc.rippleSecond (r : Rtc) : Rtc :=
  if r.s.toNat + 1 ≠ 60 then { r with s := r.s + 1#8 }
  else if r.m.toNat + 1 ≠ 60 then { r with s := 0#8, m := r.m + 1#8 }
  else if r.h.toNat + 1 ≠ 24 then { r with s := 0#8, m := 0#8, h := r.h + 1#8 }
  else if r.dayCounter + 1 ≠ 512 then
    { s := 0#8, m := 0#8, h := 0#8, dl := r.dl + 1#8,
      dh := (r.dh &&& 0xFE#8) ||| BitVec.ofNat 8 ((r.dayCounter + 1) / 256) }
  else { s := 0#8, m := 0#8, h := 0#8, dl := 0#8, dh := (r.dh &&& 0xFE#8) ||| 0x80#8 }

/-- The register named. -/
def Rtc.get (r : Rtc) : RtcReg → Byte
  | .s => r.s
  | .m => r.m
  | .h => r.h
  | .dl => r.dl
  | .dh => r.dh

/-- The register named, set. -/
def Rtc.set (r : Rtc) (reg : RtcReg) (v : Byte) : Rtc :=
  match reg with
  | .s => { r with s := v }
  | .m => { r with m := v }
  | .h => { r with h := v }
  | .dl => { r with dl := v }
  | .dh => { r with dh := v }

/-- `RtcAdvance(now)` for a clock that has not run backwards: halted, only the timestamp moves
(spec/43_rtc.md R202); running, the whole seconds since the timestamp are added and the timestamp moves by just those
(R203 to R205). -/
def Mbc3.advance (r : Mbc3) (hostHz now : Nat) : Mbc3 :=
  if dhHalt r.live.dh then { r with lastUpdateTime := now }
  else
    let n := (now - r.lastUpdateTime) / hostHz
    { r with
      live := r.live.addSeconds n
      lastUpdateTime := r.lastUpdateTime + n * hostHz }

/-- The registers after the pre-step of a transaction whose `updateRTC` is `u`
(spec/45_bus_router_openbus_observer.md R244). -/
def Mbc3.prestep (r : Mbc3) (u : Bool) (hostHz now : Nat) : Mbc3 :=
  if u then r.advance hostHz now else r

/-- The latch copy (spec/42_mbc3.md R174). -/
def Mbc3.latchCopy (r : Mbc3) : Mbc3 := { r with latched := r.live }

end Sys2Proof.Machine
end

