-- ==== Sys2Proof/Machine/Ops.lean ====
section
/-! DEFINITION. The named operations over arrays, registers and transactions: array access, the RTC
pre-step, the two transaction wrappers of spec/45_bus_router_openbus_observer.md R240 and R241, and attach.
The block has no traps (spec/60_exceptions.md R270), so no operation takes an exception. -/

namespace Sys2Proof.Machine

/-- The outcome of an operation that answers an `α`. -/
abbrev Res (α : Type) := Host.Outcome α Fault Refusal

/-- Run `f` on the answer, if there is one. -/
def andThen {α β : Type} (x : Res α) (f : α → Res β) : Res β :=
  match x with
  | .next a => f a
  | .fault e => .fault e
  | .refused e => .refused e

/-! ## Arrays -/

/-- What an unlisted offset reads as: arrays are zero-filled at reset (spec/10_state.md R24, R38, R39). -/
def Memory.unlisted : Byte := 0x00#8

/-- Byte `i` of the array. -/
def Memory.read (m : Memory) (i : Nat) : Byte :=
  match m with
  | [] => Memory.unlisted
  | c :: rest => if c.1 = i then c.2 else Memory.read rest i

/-- Put a cell in front unless it equals what an unlisted offset reads as. -/
def Memory.cons (i : Nat) (v : Byte) (m : Memory) : Memory :=
  if v = Memory.unlisted then m else (i, v) :: m

/-- Set byte `i`, keeping the canonical form. -/
def Memory.write (m : Memory) (i : Nat) (v : Byte) : Memory :=
  match m with
  | [] => Memory.cons i v []
  | c :: rest =>
    if i < c.1 then Memory.cons i v (c :: rest)
    else if i = c.1 then Memory.cons i v rest
    else c :: Memory.write rest i v

/-- The array of a byte string whose first byte stands at offset `i`. -/
def Memory.ofBytes (i : Nat) (bytes : List Byte) : Memory :=
  match bytes with
  | [] => []
  | b :: rest => Memory.cons i b (Memory.ofBytes (i + 1) rest)

/-- The canonical form: offsets strictly rising, no entry equal to what an unlisted offset reads as. -/
abbrev Memory.wf (m : Memory) : Prop :=
  m.Pairwise (fun x y => x.1 < y.1) ∧ ∀ c ∈ m, c.2 ≠ Memory.unlisted

/-- In canonical form and within `len` bytes. -/
abbrev Memory.fits (m : Memory) (len : Nat) : Prop := Memory.wf m ∧ ∀ c ∈ m, c.1 < len

/-- Read byte `off` of an array of `len` bytes. -/
def readArray (name : ArrayName) (len : Nat) (m : Memory) (off : Nat) : Res Byte :=
  if off < len then .next (Memory.read m off) else .fault (.offsetOutside name off)

/-- Write byte `off` of an array of `len` bytes. -/
def writeArray (name : ArrayName) (len : Nat) (m : Memory) (off : Nat) (v : Byte) : Res Memory :=
  if off < len then .next (Memory.write m off v) else .fault (.offsetOutside name off)

/-! ## The attached cartridge -/

/-- What the decode sees of the state (spec/30_encoding.md R104, R121). -/
def State.view (s : State) : View :=
  match s.cart with
  | none => .noCart
  | some c =>
    match c.ctrl with
    | .basic => .basic
    | .mbc1 _ => .mbc1
    | .mbc3 r => .mbc3 r.ramTimerEnable r.sel

/-- The state with the controller registers of the attached cartridge `c` replaced. -/
def State.setCtrl (s : State) (c : Cart) (k : Controller) : State :=
  { s with cart := some { c with ctrl := k } }

/-- The state with the external RAM of the attached cartridge `c` replaced. -/
def State.setXram (s : State) (c : Cart) (m : Memory) : State :=
  { s with cart := some { c with xram := m } }

/-- Go on if no cartridge is attached (spec/45_bus_router_openbus_observer.md R243). -/
def State.withNoCart {α : Type} (s : State) (k : Res α) : Res α :=
  match s.cart with
  | none => k
  | some _ => .refused .kindNotSelected

/-- Go on with the attached Basic cartridge. -/
def State.withBasic {α : Type} (s : State) (k : Cart → Res α) : Res α :=
  match s.cart with
  | none => .refused .kindNotSelected
  | some c =>
    match c.ctrl with
    | .basic => k c
    | _ => .refused .kindNotSelected

/-- Go on with the attached MBC1 cartridge and its registers. -/
def State.withMbc1 {α : Type} (s : State) (k : Cart → Mbc1 → Res α) : Res α :=
  match s.cart with
  | none => .refused .kindNotSelected
  | some c =>
    match c.ctrl with
    | .mbc1 r => k c r
    | _ => .refused .kindNotSelected

/-- Go on with the attached MBC3 cartridge and its registers. -/
def State.withMbc3 {α : Type} (s : State) (k : Cart → Mbc3 → Res α) : Res α :=
  match s.cart with
  | none => .refused .kindNotSelected
  | some c =>
    match c.ctrl with
    | .mbc3 r => k c r
    | _ => .refused .kindNotSelected

/-- The window the registers show (spec/42_mbc3.md R178). -/
def Mbc3.window (r : Mbc3) : Window := mbc3Window r.ramTimerEnable r.sel

/-- Go on with the attached MBC3 cartridge if its window shows `w`. -/
def State.withWindow {α : Type} (s : State) (w : Window) (k : Cart → Mbc3 → Res α) : Res α :=
  s.withMbc3 fun c r => if r.window = w then k c r else .refused .kindNotSelected

/-- Go on with the attached MBC3 cartridge if its window shows an RTC register, and with that register. -/
def State.withRtcWindow {α : Type} (s : State) (k : Cart → Mbc3 → RtcReg → Res α) : Res α :=
  s.withMbc3 fun c r =>
    match r.window with
    | .rtc reg => k c r reg
    | _ => .refused .kindNotSelected

/-! ## The RTC pre-step (spec/43_rtc.md R200, R209; spec/45_bus_router_openbus_observer.md R244) -/

/-- The premise on the host clock for a transaction whose `updateRTC` is `u` (spec/43_rtc.md R209). -/
def State.clockOk (s : State) (u : Bool) : Bool :=
  match s.cart with
  | none => true
  | some c =>
    match c.ctrl with
    | .mbc3 r => !u || decide (r.lastUpdateTime ≤ s.now)
    | _ => true

/-- The state after the pre-step of a transaction whose `updateRTC` is `u`, for a clock that has not run
backwards. -/
def State.prestepped (s : State) (u : Bool) : State :=
  match s.cart with
  | none => s
  | some c =>
    match c.ctrl with
    | .mbc3 r => s.setCtrl c (.mbc3 (r.prestep u s.hostHz s.now))
    | _ => s

/-- Step 1 of a transaction. -/
def prestep (u : Bool) (s : State) : Res State :=
  if s.clockOk u then .next (s.prestepped u) else .refused .hostClockBackwards

/-! ## The observers (spec/45_bus_router_openbus_observer.md R251 to R253) -/

/-- The byte the bus master receives for a read that gave `v`. -/
def State.observedValue (s : State) (a : Addr) (v : Byte) : Byte :=
  match s.readObserver with
  | none => v
  | some o => Config.readObserver o a v

/-- Steps 3 and 4 of a read: call the observer if there is one and return the byte. -/
def State.finishRead (s : State) (a : Addr) (v : Byte) : State :=
  { s with
    returned := some (s.observedValue a v)
    observed := s.readObserver.map fun o => .onRead o a v }

/-- Steps 3 and 4 of a write. -/
def State.finishWrite (s : State) (a : Addr) (d act : Byte) : State :=
  { s with
    returned := some act
    observed := s.writeObserver.map fun o => .onWrite o a d act }

/-! ## The two transactions -/

/-- `BusRead` around the read rule `access` (spec/45_bus_router_openbus_observer.md R240). -/
def busRead (u : Bool) (a : Addr) (access : State → Res Byte) (s : State) : Res State :=
  andThen (prestep u s) fun s1 => andThen (access s1) fun v => .next (s1.finishRead a v)

/-- `BusWrite` around the write rule `access`, which answers the state after it and the byte `act`
(spec/45_bus_router_openbus_observer.md R241). -/
def busWrite (u : Bool) (a : Addr) (d : Byte) (access : State → Res (State × Byte)) (s : State) :
    Res State :=
  andThen (prestep u s) fun s1 => andThen (access s1) fun r => .next (r.1.finishWrite a d r.2)

/-- A read rule that answers open bus (spec/45_bus_router_openbus_observer.md R250). -/
def openRead : Res Byte := .next openBus

/-- A write rule that drops the byte (spec/45_bus_router_openbus_observer.md R250). -/
def droppedWrite (s : State) : Res (State × Byte) := .next (s, openBus)

/-- A command write on an MBC1: the new registers, and `ACK_CTRL` of the stored value as `act`
(spec/41_mbc1.md R154). -/
def mbc1Command (cmd : Command) (d : Byte) (update : Mbc1 → Mbc1) (stored : Mbc1 → Byte) (s : State) :
    Res (State × Byte) :=
  s.withMbc1 fun c r =>
    .next (s.setCtrl c (.mbc1 (update r)), Config.ackCtrl .mbc1 cmd d (stored (update r)))

/-- A command write on an MBC3 (spec/45_bus_router_openbus_observer.md R256). -/
def mbc3Command (cmd : Command) (d : Byte) (update : Mbc3 → Mbc3) (stored : Mbc3 → Byte) (s : State) :
    Res (State × Byte) :=
  s.withMbc3 fun c r =>
    .next (s.setCtrl c (.mbc3 (update r)), Config.ackCtrl .mbc3 cmd d (stored (update r)))

/-- A write of a live RTC register: `act` is the value stored (spec/42_mbc3.md R186 to R190). -/
def rtcWrite (reg : RtcReg) (d : Byte) (s : State) : Res (State × Byte) :=
  s.withWindow (.rtc reg) fun c r =>
    let v := rtcWriteValue reg d
    .next (s.setCtrl c (.mbc3 { r with live := r.live.set reg v }), v)

/-! ## Attach -/

/-- SVBK at attach: index 0, so that it reads 0xF8 in CGB mode (spec/70_reset_and_hazards.md R303; the bits
above the index are never observed, log entry 11). -/
def svbkInit (cgb : Bool) : Byte := if cgb then 0xF8#8 else 0x00#8

/-- Attach a cartridge or nothing: the straps follow the cartridge, the memories are zero-filled, SVBK is
initialised; the cartridge keeps its own state and the observers stay (spec/70_reset_and_hazards.md R301, R303 to R306). -/
def State.attach (s : State) (cart : Option Cart) : State :=
  { s with
    cart := cart
    wram := []
    hram := []
    svbk := svbkInit (cart.any (·.header.supportsCgb)) }

/-! ## Taking the next transaction -/

/-- Take a transaction off the queue and sample the host clock for it (spec/43_rtc.md R201). -/
def State.take (s : State) (r : Request) (rest : List Input) : State :=
  { s with queue := rest, now := r.now }

/-- A host-clock sample at which no advance is refused. -/
def State.goodNow (s : State) : Nat :=
  match s.cart with
  | none => s.now
  | some c =>
    match c.ctrl with
    | .mbc3 r => max s.now r.lastUpdateTime
    | _ => s.now

end Sys2Proof.Machine
end

