-- ==== Sys2Proof/Machine/BankMbc1.lean ====
section
/-! DEFINITION. The MBC1 bank controller (spec/41_mbc1.md). -/

namespace Sys2Proof.Machine

/-! ## Command writes -/

/-- `WR.RAMEN.MBC1` (spec/41_mbc1.md R150). -/
def execWrRamenMbc1 (u : Bool) (a : Addr) (d : Byte) (s : State) : Res State :=
  busWrite u a d
    (mbc1Command .ramen d (fun r => { r with ramEnable := enableCompare d }) (fun r => flagByte r.ramEnable)) s

/-- `WR.ROMB.MBC1` (spec/41_mbc1.md R151). -/
def execWrRombMbc1 (u : Bool) (a : Addr) (d : Byte) (s : State) : Res State :=
  busWrite u a d
    (mbc1Command .romb d (fun r => { r with romBank := mbc1RomBankOf d }) (fun r => r.romBank.setWidth 8)) s

/-- `WR.RAMB.MBC1` (spec/41_mbc1.md R152). -/
def execWrRambMbc1 (u : Bool) (a : Addr) (d : Byte) (s : State) : Res State :=
  busWrite u a d
    (mbc1Command .ramb d (fun r => { r with ramBank := mbc1RamBankOf d }) (fun r => r.ramBank.setWidth 8)) s

/-- `WR.MODE.MBC1` (spec/41_mbc1.md R153). -/
def execWrModeMbc1 (u : Bool) (a : Addr) (d : Byte) (s : State) : Res State :=
  busWrite u a d
    (mbc1Command .mode d (fun r => { r with mode := mbc1ModeOf d }) (fun r => r.mode.setWidth 8)) s

/-! ## ROM reads -/

/-- `RD.ROM0.MBC1` (spec/41_mbc1.md R155, R158). -/
def execRdRom0Mbc1 (u : Bool) (a : Addr) (s : State) : Res State :=
  busRead u a (fun s => s.withMbc1 fun c r =>
    readArray .rom c.header.romLen c.rom (romOffset (mbc1Bank0 r c.header.romBanks) a)) s

/-- `RD.ROMX.MBC1` (spec/41_mbc1.md R156, R164). -/
def execRdRomXMbc1 (u : Bool) (a : Addr) (s : State) : Res State :=
  busRead u a (fun s => s.withMbc1 fun c r =>
    readArray .rom c.header.romLen c.rom (romOffset (mbc1BankX r c.header.romBanks) a)) s

/-! ## External RAM -/

/-- `RD.XRAM.MBC1`: open bus with the gate closed or the offset outside (spec/41_mbc1.md R162). -/
def execRdXramMbc1 (u : Bool) (a : Addr) (s : State) : Res State :=
  busRead u a (fun s => s.withMbc1 fun c r =>
    if r.ramEnable ∧ mbc1RamOffset r c.header.xramLen a < c.header.xramLen then
      .next (Memory.read c.xram (mbc1RamOffset r c.header.xramLen a))
    else openRead) s

/-- `WR.XRAM.MBC1`: dropped with the gate closed or the offset outside (spec/41_mbc1.md R163). -/
def execWrXramMbc1 (u : Bool) (a : Addr) (d : Byte) (s : State) : Res State :=
  busWrite u a d (fun s => s.withMbc1 fun c r =>
    if r.ramEnable ∧ mbc1RamOffset r c.header.xramLen a < c.header.xramLen then
      .next (s.setXram c (Memory.write c.xram (mbc1RamOffset r c.header.xramLen a) d), d)
    else droppedWrite s) s

end Sys2Proof.Machine
end

