-- ==== Sys2Proof/Machine/BankMbc3.lean ====
section
/-! DEFINITION. The MBC3 bank controller: commands, latch, ROM reads and the external-RAM window
(spec/42_mbc3.md). -/

namespace Sys2Proof.Machine

/-! ## Command writes -/

/-- `WR.RAMEN.MBC3` (spec/42_mbc3.md R170). -/
def execWrRamenMbc3 (u : Bool) (a : Addr) (d : Byte) (s : State) : Res State :=
  busWrite u a d
    (mbc3Command .ramen d (fun r => { r with ramTimerEnable := enableCompare d })
      (fun r => flagByte r.ramTimerEnable)) s

/-- `WR.ROMB.MBC3` (spec/42_mbc3.md R171). -/
def execWrRombMbc3 (u : Bool) (a : Addr) (d : Byte) (s : State) : Res State :=
  busWrite u a d
    (mbc3Command .romb d (fun r => { r with romBank := mbc3RomBankOf d }) (fun r => r.romBank.setWidth 8)) s

/-- `WR.SEL.MBC3` (spec/42_mbc3.md R172). -/
def execWrSelMbc3 (u : Bool) (a : Addr) (d : Byte) (s : State) : Res State :=
  busWrite u a d
    (mbc3Command .sel d (fun r => { r with sel := mbc3SelOf d }) (fun r => r.sel.setWidth 8)) s

/-! ## The latch state machine (spec/42_mbc3.md R184) -/

/-- `WR.LATCH0.MBC3`: arm (spec/42_mbc3.md R173). -/
def execWrLatch0Mbc3 (u : Bool) (a : Addr) (s : State) : Res State :=
  busWrite u a 0x00#8
    (mbc3Command .latch 0x00#8 (fun r => { r with latchState := 1#1 }) (fun r => r.latchState.setWidth 8)) s

/-- `WR.LATCH1.MBC3`: latch if armed, and disarm (spec/42_mbc3.md R174). -/
def execWrLatch1Mbc3 (u : Bool) (a : Addr) (s : State) : Res State :=
  busWrite u a 0x01#8
    (mbc3Command .latch 0x01#8
      (fun r => { (if r.latchState = 1#1 then r.latchCopy else r) with latchState := 0#1 })
      (fun r => r.latchState.setWidth 8)) s

/-- `WR.LATCHX.MBC3`: disarm (spec/42_mbc3.md R175). -/
def execWrLatchXMbc3 (u : Bool) (a : Addr) (d : Byte) (s : State) : Res State :=
  busWrite u a d
    (mbc3Command .latch d (fun r => { r with latchState := 0#1 }) (fun r => r.latchState.setWidth 8)) s

/-! ## ROM reads -/

/-- `RD.ROM0.MBC3`: `ROM[a]` (spec/42_mbc3.md R176). -/
def execRdRom0Mbc3 (u : Bool) (a : Addr) (s : State) : Res State :=
  busRead u a (fun s => s.withMbc3 fun c _ => readArray .rom c.header.romLen c.rom a.toNat) s

/-- `RD.ROMX.MBC3` (spec/42_mbc3.md R177). -/
def execRdRomXMbc3 (u : Bool) (a : Addr) (s : State) : Res State :=
  busRead u a (fun s => s.withMbc3 fun c r =>
    readArray .rom c.header.romLen c.rom (romOffset (mbc3BankX r c.header.romBanks) a)) s

/-! ## The external-RAM window -/

/-- `RD.XRAM.MBC3.OFF` (spec/42_mbc3.md R179). -/
def execRdXramMbc3Off (u : Bool) (a : Addr) (s : State) : Res State :=
  busRead u a (fun s => s.withWindow .off fun _ _ => openRead) s

/-- `WR.XRAM.MBC3.OFF` (spec/42_mbc3.md R180). -/
def execWrXramMbc3Off (u : Bool) (a : Addr) (d : Byte) (s : State) : Res State :=
  busWrite u a d (fun s => s.withWindow .off fun _ _ => droppedWrite s) s

/-- `RD.XRAM.MBC3.RAM` (spec/42_mbc3.md R182). -/
def execRdXramMbc3Ram (u : Bool) (a : Addr) (s : State) : Res State :=
  busRead u a (fun s => s.withWindow .ram fun c r =>
    match mbc3RamOffset r c.header.xramBanks a with
    | none => openRead
    | some off => readArray .xram c.header.xramLen c.xram off) s

/-- `WR.XRAM.MBC3.RAM` (spec/42_mbc3.md R183). -/
def execWrXramMbc3Ram (u : Bool) (a : Addr) (d : Byte) (s : State) : Res State :=
  busWrite u a d (fun s => s.withWindow .ram fun c r =>
    match mbc3RamOffset r c.header.xramBanks a with
    | none => droppedWrite s
    | some off =>
      andThen (writeArray .xram c.header.xramLen c.xram off d) fun m => .next (s.setXram c m, d)) s

/-- `RD.RTC.MBC3`: the latched register selected (spec/42_mbc3.md R185). -/
def execRdRtcMbc3 (u : Bool) (a : Addr) (s : State) : Res State :=
  busRead u a (fun s => s.withRtcWindow fun _ r reg => .next (r.latched.get reg)) s

/-- `WR.RTC.S.MBC3` (spec/42_mbc3.md R186). -/
def execWrRtcSMbc3 (u : Bool) (a : Addr) (d : Byte) (s : State) : Res State :=
  busWrite u a d (rtcWrite .s d) s

/-- `WR.RTC.M.MBC3` (spec/42_mbc3.md R187). -/
def execWrRtcMMbc3 (u : Bool) (a : Addr) (d : Byte) (s : State) : Res State :=
  busWrite u a d (rtcWrite .m d) s

/-- `WR.RTC.H.MBC3` (spec/42_mbc3.md R188). -/
def execWrRtcHMbc3 (u : Bool) (a : Addr) (d : Byte) (s : State) : Res State :=
  busWrite u a d (rtcWrite .h d) s

/-- `WR.RTC.DL.MBC3` (spec/42_mbc3.md R189). -/
def execWrRtcDlMbc3 (u : Bool) (a : Addr) (d : Byte) (s : State) : Res State :=
  busWrite u a d (rtcWrite .dl d) s

/-- `WR.RTC.DH.MBC3` (spec/42_mbc3.md R190). -/
def execWrRtcDhMbc3 (u : Bool) (a : Addr) (d : Byte) (s : State) : Res State :=
  busWrite u a d (rtcWrite .dh d) s

/-- `RD.XRAM.MBC3.RSV` (spec/42_mbc3.md R191). -/
def execRdXramMbc3Rsv (u : Bool) (a : Addr) (s : State) : Res State :=
  busRead u a (fun s => s.withWindow .rsv fun _ _ => openRead) s

/-- `WR.XRAM.MBC3.RSV` (spec/42_mbc3.md R192). -/
def execWrXramMbc3Rsv (u : Bool) (a : Addr) (d : Byte) (s : State) : Res State :=
  busWrite u a d (fun s => s.withWindow .rsv fun _ _ => droppedWrite s) s

end Sys2Proof.Machine
end

