-- ==== Sys2Proof/Machine/Basic.lean ====
section
/-! DEFINITION. The Basic variant (spec/40_cartridge_common_basic.md R137 to R142). -/

namespace Sys2Proof.Machine

/-- `RD.ROM.BASIC`: `ROM[a]` if `a < ROM_LEN`, else open bus (spec/40_cartridge_common_basic.md R137). -/
def execRdRomBasic (u : Bool) (a : Addr) (s : State) : Res State :=
  busRead u a (fun s => s.withBasic fun c =>
    if a.toNat < c.header.romLen then .next (Memory.read c.rom a.toNat) else openRead) s

/-- `WR.ROM.BASIC`: dropped (spec/40_cartridge_common_basic.md R138). -/
def execWrRomBasic (u : Bool) (a : Addr) (d : Byte) (s : State) : Res State :=
  busWrite u a d (fun s => s.withBasic fun _ => droppedWrite s) s

/-- `RD.XRAM.BASIC`: `XRAM[rel]` if `rel < XRAM_LEN`, else open bus (spec/40_cartridge_common_basic.md R139). -/
def execRdXramBasic (u : Bool) (a : Addr) (s : State) : Res State :=
  busRead u a (fun s => s.withBasic fun c =>
    if rel a 0xA000 < c.header.xramLen then .next (Memory.read c.xram (rel a 0xA000)) else openRead) s

/-- `WR.XRAM.BASIC`: stored if `rel < XRAM_LEN`, else dropped (spec/40_cartridge_common_basic.md R141). -/
def execWrXramBasic (u : Bool) (a : Addr) (d : Byte) (s : State) : Res State :=
  busWrite u a d (fun s => s.withBasic fun c =>
    if rel a 0xA000 < c.header.xramLen then
      .next (s.setXram c (Memory.write c.xram (rel a 0xA000) d), d)
    else droppedWrite s) s

end Sys2Proof.Machine
end

