-- ==== Sys2Proof/Machine/NoCart.lean ====
section
/-! DEFINITION. The cartridge windows with no cartridge attached (spec/40_cartridge_common_basic.md R133 to R136). -/

namespace Sys2Proof.Machine

/-- `RD.ROM.NOCART` (spec/40_cartridge_common_basic.md R133). -/
def execRdRomNocart (u : Bool) (a : Addr) (s : State) : Res State :=
  busRead u a (fun s => s.withNoCart openRead) s

/-- `WR.ROM.NOCART` (spec/40_cartridge_common_basic.md R134). -/
def execWrRomNocart (u : Bool) (a : Addr) (d : Byte) (s : State) : Res State :=
  busWrite u a d (fun s => s.withNoCart (droppedWrite s)) s

/-- `RD.XRAM.NOCART` (spec/40_cartridge_common_basic.md R135). -/
def execRdXramNocart (u : Bool) (a : Addr) (s : State) : Res State :=
  busRead u a (fun s => s.withNoCart openRead) s

/-- `WR.XRAM.NOCART` (spec/40_cartridge_common_basic.md R136). -/
def execWrXramNocart (u : Bool) (a : Addr) (d : Byte) (s : State) : Res State :=
  busWrite u a d (fun s => s.withNoCart (droppedWrite s)) s

end Sys2Proof.Machine
end

