-- ==== Sys2Proof/Machine/OpenBus.lean ====
section
/-! DEFINITION. The open-bus arbiter's own addresses (spec/45_bus_router_openbus_observer.md R245 to R249). -/

namespace Sys2Proof.Machine

/-- `RD.OPEN` (spec/45_bus_router_openbus_observer.md R245). -/
def execRdOpen (u : Bool) (a : Addr) (s : State) : Res State :=
  busRead u a (fun _ => openRead) s

/-- `WR.OPEN` (spec/45_bus_router_openbus_observer.md R247). -/
def execWrOpen (u : Bool) (a : Addr) (d : Byte) (s : State) : Res State :=
  busWrite u a d droppedWrite s

/-- `RD.FFFF` (spec/45_bus_router_openbus_observer.md R248). -/
def execRdFfff (u : Bool) (s : State) : Res State :=
  busRead u 0xFFFF#16 (fun _ => openRead) s

/-- `WR.FFFF` (spec/45_bus_router_openbus_observer.md R249). -/
def execWrFfff (u : Bool) (d : Byte) (s : State) : Res State :=
  busWrite u 0xFFFF#16 d droppedWrite s

end Sys2Proof.Machine
end

