-- ==== Sys2Proof/Machine/WorkRam.lean ====
section
/-! DEFINITION. Work RAM, high RAM and SVBK (spec/44_memory_wram_hram_svbk.md). -/

namespace Sys2Proof.Machine

/-- `WRAM[off] <- d; act <- d`. -/
def wramStore (off : Nat) (d : Byte) (s : State) : Res (State × Byte) :=
  andThen (writeArray .wram (wramLen s.cgb) s.wram off d) fun m => .next ({ s with wram := m }, d)

/-- `RD.WRAM0` (spec/44_memory_wram_hram_svbk.md R222). -/
def execRdWram0 (u : Bool) (a : Addr) (s : State) : Res State :=
  busRead u a (fun s => readArray .wram (wramLen s.cgb) s.wram (rel a 0xC000)) s

/-- `WR.WRAM0` (spec/44_memory_wram_hram_svbk.md R223). -/
def execWrWram0 (u : Bool) (a : Addr) (d : Byte) (s : State) : Res State :=
  busWrite u a d (wramStore (rel a 0xC000) d) s

/-- `RD.WRAMX` (spec/44_memory_wram_hram_svbk.md R224). -/
def execRdWramX (u : Bool) (a : Addr) (s : State) : Res State :=
  busRead u a (fun s => readArray .wram (wramLen s.cgb) s.wram (wramXOffset s.cgb s.svbk a)) s

/-- `WR.WRAMX` (spec/44_memory_wram_hram_svbk.md R225). -/
def execWrWramX (u : Bool) (a : Addr) (d : Byte) (s : State) : Res State :=
  busWrite u a d (fun s => wramStore (wramXOffset s.cgb s.svbk a) d s) s

/-- `RD.HRAM` (spec/44_memory_wram_hram_svbk.md R226). -/
def execRdHram (u : Bool) (a : Addr) (s : State) : Res State :=
  busRead u a (fun s => readArray .hram hramLen s.hram (rel a 0xFF80)) s

/-- `WR.HRAM` (spec/44_memory_wram_hram_svbk.md R227). -/
def execWrHram (u : Bool) (a : Addr) (d : Byte) (s : State) : Res State :=
  busWrite u a d (fun s =>
    andThen (writeArray .hram hramLen s.hram (rel a 0xFF80) d) fun m => .next ({ s with hram := m }, d)) s

/-- `RD.SVBK` (spec/44_memory_wram_hram_svbk.md R228). -/
def execRdSvbk (u : Bool) (s : State) : Res State :=
  busRead u 0xFF70#16 (fun s => .next (if s.cgb then svbkRead s.svbk else openBus)) s

/-- `WR.SVBK` (spec/44_memory_wram_hram_svbk.md R229). -/
def execWrSvbk (u : Bool) (d : Byte) (s : State) : Res State :=
  busWrite u 0xFF70#16 d (fun s =>
    if s.cgb then .next ({ s with svbk := svbkWrite s.svbk d }, svbkRead (svbkWrite s.svbk d))
    else droppedWrite s) s

end Sys2Proof.Machine
end

