-- ==== Sys2Proof/Machine/Dispatch.lean ====
section
/-! DEFINITION. The one match that gives every transaction kind its meaning. -/

namespace Sys2Proof.Machine

def exec (i : Instr) (s : State) : Host.Outcome State Fault Refusal :=
  match i with
  | .rdRomNocart u a => Sys2Proof.Machine.execRdRomNocart u a s
  | .rdRomBasic u a => Sys2Proof.Machine.execRdRomBasic u a s
  | .rdRom0Mbc1 u a => Sys2Proof.Machine.execRdRom0Mbc1 u a s
  | .rdRomXMbc1 u a => Sys2Proof.Machine.execRdRomXMbc1 u a s
  | .rdRom0Mbc3 u a => Sys2Proof.Machine.execRdRom0Mbc3 u a s
  | .rdRomXMbc3 u a => Sys2Proof.Machine.execRdRomXMbc3 u a s
  | .rdXramNocart u a => Sys2Proof.Machine.execRdXramNocart u a s
  | .rdXramBasic u a => Sys2Proof.Machine.execRdXramBasic u a s
  | .rdXramMbc1 u a => Sys2Proof.Machine.execRdXramMbc1 u a s
  | .rdXramMbc3Off u a => Sys2Proof.Machine.execRdXramMbc3Off u a s
  | .rdXramMbc3Ram u a => Sys2Proof.Machine.execRdXramMbc3Ram u a s
  | .rdRtcMbc3 u a => Sys2Proof.Machine.execRdRtcMbc3 u a s
  | .rdXramMbc3Rsv u a => Sys2Proof.Machine.execRdXramMbc3Rsv u a s
  | .rdWram0 u a => Sys2Proof.Machine.execRdWram0 u a s
  | .rdWramX u a => Sys2Proof.Machine.execRdWramX u a s
  | .rdFfff u => Sys2Proof.Machine.execRdFfff u s
  | .rdHram u a => Sys2Proof.Machine.execRdHram u a s
  | .rdSvbk u => Sys2Proof.Machine.execRdSvbk u s
  | .rdOpen u a => Sys2Proof.Machine.execRdOpen u a s
  | .wrRomNocart u a d => Sys2Proof.Machine.execWrRomNocart u a d s
  | .wrRomBasic u a d => Sys2Proof.Machine.execWrRomBasic u a d s
  | .wrRamenMbc1 u a d => Sys2Proof.Machine.execWrRamenMbc1 u a d s
  | .wrRombMbc1 u a d => Sys2Proof.Machine.execWrRombMbc1 u a d s
  | .wrRambMbc1 u a d => Sys2Proof.Machine.execWrRambMbc1 u a d s
  | .wrModeMbc1 u a d => Sys2Proof.Machine.execWrModeMbc1 u a d s
  | .wrRamenMbc3 u a d => Sys2Proof.Machine.execWrRamenMbc3 u a d s
  | .wrRombMbc3 u a d => Sys2Proof.Machine.execWrRombMbc3 u a d s
  | .wrSelMbc3 u a d => Sys2Proof.Machine.execWrSelMbc3 u a d s
  | .wrLatch0Mbc3 u a => Sys2Proof.Machine.execWrLatch0Mbc3 u a s
  | .wrLatch1Mbc3 u a => Sys2Proof.Machine.execWrLatch1Mbc3 u a s
  | .wrLatchXMbc3 u a d => Sys2Proof.Machine.execWrLatchXMbc3 u a d s
  | .wrXramNocart u a d => Sys2Proof.Machine.execWrXramNocart u a d s
  | .wrXramBasic u a d => Sys2Proof.Machine.execWrXramBasic u a d s
  | .wrXramMbc1 u a d => Sys2Proof.Machine.execWrXramMbc1 u a d s
  | .wrXramMbc3Off u a d => Sys2Proof.Machine.execWrXramMbc3Off u a d s
  | .wrXramMbc3Ram u a d => Sys2Proof.Machine.execWrXramMbc3Ram u a d s
  | .wrRtcSMbc3 u a d => Sys2Proof.Machine.execWrRtcSMbc3 u a d s
  | .wrRtcMMbc3 u a d => Sys2Proof.Machine.execWrRtcMMbc3 u a d s
  | .wrRtcHMbc3 u a d => Sys2Proof.Machine.execWrRtcHMbc3 u a d s
  | .wrRtcDlMbc3 u a d => Sys2Proof.Machine.execWrRtcDlMbc3 u a d s
  | .wrRtcDhMbc3 u a d => Sys2Proof.Machine.execWrRtcDhMbc3 u a d s
  | .wrXramMbc3Rsv u a d => Sys2Proof.Machine.execWrXramMbc3Rsv u a d s
  | .wrWram0 u a d => Sys2Proof.Machine.execWrWram0 u a d s
  | .wrWramX u a d => Sys2Proof.Machine.execWrWramX u a d s
  | .wrFfff u d => Sys2Proof.Machine.execWrFfff u d s
  | .wrHram u a d => Sys2Proof.Machine.execWrHram u a d s
  | .wrSvbk u d => Sys2Proof.Machine.execWrSvbk u d s
  | .wrOpen u a d => Sys2Proof.Machine.execWrOpen u a d s

end Sys2Proof.Machine
end

