-- ==== Sys2Proof/Machine/Load.lean ====
section
/-! DEFINITION. What the host does between transactions: loading a ROM file (header, checksum, validators,
finalize, restore), attaching and detaching, observers, the Executive (spec/60_exceptions.md R271 to R282,
spec/70_reset_and_hazards.md R300 to R306). -/

namespace Sys2Proof.Machine

/-! ## The header -/

/-- Byte `i` of a file; the rules below read it only where the file has it. -/
def fileByte (file : List Byte) (i : Nat) : Byte := file.getD i 0x00#8

/-- One step of the checksum: `x - b - 1 (mod 256)` (spec/60_exceptions.md R277). -/
def checksumStep (x b : Byte) : Byte := x - b - 1#8

/-- The checksum over bytes 0x0134 to 0x014C (spec/60_exceptions.md R277). -/
def headerChecksum (file : List Byte) : Byte :=
  ((file.drop 0x0134).take 25).foldl checksumStep 0x00#8

/-- Trailing NULs trimmed (spec/10_state.md R22). -/
def trimTitle (bytes : List Byte) : List Byte :=
  (bytes.reverse.dropWhile (· == 0x00#8)).reverse

/-- The header fields. PRESUMED: the offsets are general knowledge (spec/30_encoding.md R123; log entry 9),
but for the checksum byte at 0x014D. -/
def parseHeader (file : List Byte) : Header where
  title := trimTitle ((file.drop 0x0134).take 16)
  cgbFlag := fileByte file 0x0143
  cartridgeType := fileByte file 0x0147
  romSize := fileByte file 0x0148
  ramSize := fileByte file 0x0149
  headerChecksum := fileByte file 0x014D

/-! ## The validators (spec/60_exceptions.md R273, R278 to R280) -/

/-- The ROM and RAM sizes go with the type. -/
def sizesValid (line : TypeLine) (romSize ramSize : Nat) : Bool :=
  match line.variant with
  | .basic => romSize == 0 && (ramSize == 0x00 || (line.ramLine && ramSize == 0x02))
  | .mbc1 => romSize ≤ 6 && (ramSize == 0x00 || (line.ramLine && (ramSize == 0x02 || ramSize == 0x03)))
  | .mbc3 => romSize ≤ 6 && (ramSize == 0x00 || (line.ramLine && (ramSize == 0x02 || ramSize == 0x03)))

/-- `validateByType()`. -/
def Header.valid (h : Header) : Bool :=
  match typeLine h.cartridgeType with
  | none => false
  | some line => sizesValid line h.romSize.toNat h.ramSize.toNat

/-! ## Finalize (spec/70_reset_and_hazards.md R302, R310) -/

/-- The MBC1 registers at finalize. -/
def Mbc1.initial : Mbc1 := { ramEnable := false, romBank := 1#5, ramBank := 0#2, mode := 0#1 }

/-- Five zero registers, the default of `RTC_INIT` and `RTC_LATCH_INIT`. -/
def Rtc.zero : Rtc := { s := 0#8, m := 0#8, h := 0#8, dl := 0#8, dh := 0#8 }

/-- The MBC3 registers at finalize at host time `now`. -/
def Mbc3.initial (now : Nat) : Mbc3 where
  ramTimerEnable := false
  romBank := 1#7
  sel := 0#4
  live := Rtc.zero
  latched := Rtc.zero
  latchState := 0#1
  lastUpdateTime := now

/-- The controller at finalize. -/
def Controller.initial (v : Variant) (now : Nat) : Controller :=
  match v with
  | .basic => .basic
  | .mbc1 => .mbc1 Mbc1.initial
  | .mbc3 => .mbc3 (Mbc3.initial now)

/-- The cartridge at finalize: the file's first `ROM_LEN` bytes, external RAM zero, default registers. -/
def finalizeCart (h : Header) (v : Variant) (file : List Byte) (now : Nat) : Cart where
  header := h
  rom := Memory.ofBytes 0 (file.take h.romLen)
  xram := []
  ctrl := Controller.initial v now

/-- Make the cartridge of a file, or say which check failed first (spec/60_exceptions.md R276). -/
def makeCart (file : List Byte) (now : Nat) : Except HostError Cart :=
  if file.length < 0x0150 then .error .malformedHeader
  else if headerChecksum file ≠ fileByte file 0x014D then .error .malformedHeader
  else
    match typeLine (parseHeader file).cartridgeType with
    | none => .error .malformedHeader
    | some line =>
      if (parseHeader file).valid then
        if file.length < (parseHeader file).romLen then .error .ioFailure
        else .ok (finalizeCart (parseHeader file) line.variant file now)
      else .error .headerMismatch

/-! ## Restoring a save (spec/60_exceptions.md R291, R292) -/

/-- The restored RTC parameters are in range (spec/00_scope.md R7). -/
def RtcSave.legal (r : RtcSave) : Bool := r.live.canonical && r.latched.canonical

/-- The save fits the cartridge: it has a battery, the save has `XRAM_LEN` bytes, and it carries an RTC region
only for a cartridge with a timer (spec/43_rtc.md R213). -/
def Save.legal (sv : Save) (h : Header) : Bool :=
  h.hasBattery && sv.xram.length == h.xramLen &&
    match sv.rtc with
    | none => true
    | some r => h.hasTimer && r.legal

/-- The RTC parameters put into the controller. -/
def restoreRtc (k : Controller) (rtc : Option RtcSave) : Controller :=
  match k, rtc with
  | .mbc3 r, some v => .mbc3 { r with live := v.live, latched := v.latched, lastUpdateTime := v.time }
  | k, _ => k

/-- The finalized cartridge with the save restored. -/
def restore (c : Cart) (sv : Save) : Cart :=
  { c with
    xram := Memory.ofBytes 0 sv.xram
    ctrl := restoreRtc c.ctrl sv.rtc }

/-- Byte `i` of the save file is `XRAM[i]` (spec/60_exceptions.md R292). -/
def Cart.saveImage (c : Cart) : List Byte :=
  (List.range c.header.xramLen).map (Memory.read c.xram)

/-! ## Legal cartridges -/

/-- The registers a controller can hold (spec/10_state.md R27, R31, R37). -/
def Controller.legal : Controller → Bool
  | .basic => true
  | .mbc1 r => r.romBank != 0#5
  | .mbc3 r => r.romBank != 0#7 && r.live.canonical && r.latched.canonical

/-- The file's bytes up to the end of the header region, as the ROM holds them (spec/10_state.md R22, R23). -/
def Cart.headerImage (c : Cart) : List Byte := (List.range 0x0150).map (Memory.read c.rom)

/-- The header is the one the ROM holds, and its checksum is right (spec/10_state.md R22, spec/60_exceptions.md R272,
R277). -/
def Cart.headerMatches (c : Cart) : Bool :=
  parseHeader c.headerImage == c.header && headerChecksum c.headerImage == c.header.headerChecksum

/-- What holds of every finalized cartridge: its header is its ROM's, with the right checksum, and passed the
validator; its controller is the variant's, its arrays fit, its registers are legal. A cartridge that fails "is
rejected before any bus access can occur" (spec/10_state.md R22, spec/00_scope.md R6). -/
def Cart.legal (c : Cart) : Bool :=
  c.headerMatches && c.header.valid &&
    (typeLine c.header.cartridgeType).any (fun line => line.variant == c.ctrl.variant) &&
    decide (Memory.fits c.rom c.header.romLen) && decide (Memory.fits c.xram c.header.xramLen) &&
    c.ctrl.legal

/-! ## The host's moves -/

/-- A successful load: attach the cartridge, report nothing. -/
def attachLoaded (s : State) (c : Cart) : Res State := .next { s.attach (some c) with report := none }

/-- Load a ROM file and attach it; a failed load leaves the context with no cartridge and reports the error
(spec/60_exceptions.md R281, spec/70_reset_and_hazards.md R305). -/
def loadMove (file : List Byte) (save : Option Save) (now : Nat) (s : State) : Res State :=
  match makeCart file now with
  | .error e => .next { s.attach none with report := some e }
  | .ok c =>
    match save with
    | none => attachLoaded s c
    | some sv => if sv.legal c.header then attachLoaded s (restore c sv) else .refused .illegalHostInput

/-- Attach a cartridge already finalized (spec/70_reset_and_hazards.md R301); one that no finalize can have made, its
header's checksum among the tests, is refused (spec/10_state.md R22). -/
def attachMove (c : Cart) (s : State) : Res State :=
  if c.legal then .next { s.attach (some c) with report := none } else .refused .illegalHostInput

/-- The Executive's `tick()`: no effect on the block, `BusMisuse` when no context is active
(spec/45_bus_router_openbus_observer.md R261, spec/60_exceptions.md R274). -/
def tickMove (s : State) : Res State :=
  .next { s with report := if s.executiveActive then none else some .busMisuse }

/-- One move of the host. -/
def hostMove (m : HostMove) (s : State) : Res State :=
  match m with
  | .load file save now => loadMove file save now s
  | .attach c => attachMove c s
  | .detach => .next { s.attach none with report := none }
  | .installReadObserver o => .next { s with readObserver := o, report := none }
  | .installWriteObserver o => .next { s with writeObserver := o, report := none }
  | .useContext active => .next { s with executiveActive := active, report := none }
  | .tick => tickMove s

end Sys2Proof.Machine
end

