-- ==== Sys2Proof/Machine/Step.lean ====
section
/-! DEFINITION. One step: the next thing in the queue happens. -/

namespace Sys2Proof.Machine

/-- One step. A transaction is taken, decoded in the state it meets and run; a host move is made; with nothing
queued the block does nothing, since it makes no step of its own (spec/10_state.md R20, R50; log entry 2). -/
def step (s : State) : Host.Outcome State Fault Refusal :=
  match s.queue with
  | [] => .next s
  | .transaction r :: rest => exec (decode s.view r.word) (s.take r rest)
  | .host m :: rest => hostMove m { s with queue := rest }

/-- The state with the transaction word `w` put in front of the queue, with a host-clock sample no advance
refuses, so that the next step runs it. -/
def State.withFetchWord (s : State) (_nbits w : Nat) : State :=
  { s with
    queue := .transaction { word := BitVec.ofNat 26 w, otherRules := [], now := s.goodNow } :: s.queue }

end Sys2Proof.Machine
end

