-- ==== Sys2Proof/Safety.lean ====
section
/-! DEFINITION. What counts as a legal state, and the words the claims use for what a transaction does. -/

namespace Sys2Proof.Machine

/-- The invariant of the block: `HOST_HZ >= 1` (spec/43_rtc.md R201); an attached cartridge is legal: its header is its
ROM's, with the right checksum, and validated (spec/10_state.md R22), its arrays are in canonical form and within their
lengths, its bank register is not 0 (R27, R31), its RTC registers are in range (R37); work RAM and high RAM are in
canonical form and within their lengths (R38, R39). -/
def State.Inv (s : State) : Prop :=
  1 ≤ s.hostHz ∧ s.cart.all Cart.legal = true ∧ Memory.fits s.wram (wramLen s.cgb) ∧
    Memory.fits s.hram hramLen

/-- The transaction `i` in state `s` answers a next state: the block state `t`, the byte `v` handed through the read
observer for address `a`, and that observer's call (spec/45_bus_router_openbus_observer.md R240, R251). -/
def ReadsAs (i : Instr) (s t : State) (a : Addr) (v : Byte) : Prop :=
  exec i s = .next { t with
    returned := some (match s.readObserver with
      | none => v
      | some o => Config.readObserver o a v)
    observed := match s.readObserver with
      | none => none
      | some o => some (.onRead o a v) }

/-- The transaction `i` in state `s` answers a next state: the block state `t`, the returned byte `act`, and the
write observer's call (spec/45_bus_router_openbus_observer.md R241, R252). -/
def WritesAs (i : Instr) (s t : State) (a : Addr) (d act : Byte) : Prop :=
  exec i s = .next { t with
    returned := some act
    observed := match s.writeObserver with
      | none => none
      | some o => some (.onWrite o a d act) }

/-! ## Which kind of transaction -/

/-- A write of a live RTC register (spec/42_mbc3.md R186 to R190). -/
def isRtcWrite : Instr → Bool
  | .wrRtcSMbc3 _ _ _ | .wrRtcMMbc3 _ _ _ | .wrRtcHMbc3 _ _ _ | .wrRtcDlMbc3 _ _ _
  | .wrRtcDhMbc3 _ _ _ => true
  | _ => false

/-- A write to the MBC3 latch window (spec/42_mbc3.md R173 to R175). -/
def isLatchWrite : Instr → Bool
  | .wrLatch0Mbc3 _ _ | .wrLatch1Mbc3 _ _ | .wrLatchXMbc3 _ _ _ => true
  | _ => false

/-- A write that can reach external RAM (spec/10_state.md R24). -/
def storesXram : Instr → Bool
  | .wrXramBasic _ _ _ | .wrXramMbc1 _ _ _ | .wrXramMbc3Ram _ _ _ => true
  | _ => false

/-- A write that reaches work RAM (spec/10_state.md R38). -/
def storesWram : Instr → Bool
  | .wrWram0 _ _ _ | .wrWramX _ _ _ => true
  | _ => false

/-- A write that reaches high RAM (spec/10_state.md R39). -/
def storesHram : Instr → Bool
  | .wrHram _ _ _ => true
  | _ => false

/-- A write that reaches SVBK (spec/10_state.md R40). -/
def storesSvbk : Instr → Bool
  | .wrSvbk _ _ => true
  | _ => false

/-! ## Words for states -/

/-- The MBC1 cartridge `c` with registers `r` is attached. -/
def State.HasMbc1 (s : State) (c : Cart) (r : Mbc1) : Prop := s.cart = some c ∧ c.ctrl = .mbc1 r

/-- The MBC3 cartridge `c` with registers `r` is attached. -/
def State.HasMbc3 (s : State) (c : Cart) (r : Mbc3) : Prop := s.cart = some c ∧ c.ctrl = .mbc3 r

/-- The premise on the host clock: an MBC3 that a transaction with `updateRTC` advances has not been advanced past
the sample (spec/43_rtc.md R209). -/
def State.ClockFine (s : State) (u : Bool) : Prop :=
  ∀ c r, s.HasMbc3 c r → u = true → r.lastUpdateTime ≤ s.now

/-- `s` with the MBC3 registers of the attached cartridge `c` set to `r`. -/
def State.mbc3Set (s : State) (c : Cart) (r : Mbc3) : State :=
  { s with cart := some { c with ctrl := .mbc3 r } }

/-- `s` with the MBC1 registers of the attached cartridge `c` set to `r`. -/
def State.mbc1Set (s : State) (c : Cart) (r : Mbc1) : State :=
  { s with cart := some { c with ctrl := .mbc1 r } }

/-- The external RAM of the attached cartridge; empty when none is attached. -/
def State.xram (s : State) : Memory := (s.cart.map (·.xram)).getD []

/-- The MBC3 registers, if an MBC3 is attached. -/
def State.mbc3? (s : State) : Option Mbc3 :=
  match s.cart with
  | none => none
  | some c =>
    match c.ctrl with
    | .mbc3 r => some r
    | _ => none

/-- The external-RAM window is gated off: an MBC1 with `ramEnable` false or an MBC3 with `ramTimerEnable` false
(spec/20_memory.md R84). -/
def State.gateClosed (s : State) : Prop :=
  ∃ c, s.cart = some c ∧
    ((∃ r, c.ctrl = .mbc1 r ∧ r.ramEnable = false) ∨ (∃ r, c.ctrl = .mbc3 r ∧ r.ramTimerEnable = false))

/-- The states are the same but for the model's output ports (`returned`, `observed`, `report`). -/
def SameBlock (s t : State) : Prop :=
  t = { s with returned := t.returned, observed := t.observed, report := t.report }

end Sys2Proof.Machine
end

