-- ==== Sys2Proof/Certificates/Slice0/Obligations.lean ====
section
/-! DEFINITION. The statements about the block, for the provers. `ReadsAs`, `WritesAs` and the words they use are
in Sys2Proof/Safety.lean: both conclude that the transaction ANSWERS a next state, and say which, field for field. -/

open Sys2Proof Sys2Proof.Machine

/-! ## Encoding and decoding -/

/-- spec/30_encoding.md R101, R103 to R106, R110, R111, R122: whatever the cartridge, a well-formed instruction whose
kind applies is read back from its word, with every operand at every value. -/
def Obligations.DecodeOfEncode : Prop :=
  ∀ (v : View) (i : Instr), i.wf = true → i.applies v = true → decode v (encode i) = i

/-- spec/30_encoding.md R101, R122: every word decodes to a well-formed kind that applies, and encoding it gives the
word back, with the ignored data field of a read cleared. -/
def Obligations.EncodeOfDecode : Prop :=
  ∀ (v : View) (t : TWord),
    (decode v t).wf = true ∧ (decode v t).applies v = true ∧
      encode (decode v t) = pack t.u t.w t.a (if t.w then t.d else 0x00#8)

/-- spec/30_encoding.md R122: the decoder gives the first row of the opcode table, in order, whose variant, `when` and
fixed bits fit; there always is one. -/
def Obligations.DecodeIsFirstTableRow : Prop :=
  ∀ (v : View) (t : TWord), tableKind v t = some (decode v t).mnemonic

/-- spec/95_test_vectors.md 2.12 and 1.2: words of the spec's tables decode to the transactions they stand for. -/
def Obligations.SpecWordsDecode : Prop :=
  decode .noCart 0x2000000#26 = .rdRomNocart true 0x0000#16 ∧
  decode .basic 0x2010000#26 = .rdRomBasic true 0x0100#16 ∧
  decode .mbc1 0x3200005#26 = .wrRombMbc1 true 0x2000#16 0x05#8 ∧
  decode .mbc1 0x2400000#26 = .rdRomXMbc1 true 0x4000#16 ∧
  decode (.mbc3 true 8#4) 0x0A00000#26 = .rdRtcMbc3 false 0xA000#16 ∧
  decode (.mbc3 false 0#4) 0x3600001#26 = .wrLatch1Mbc3 true 0x6000#16 ∧
  decode .mbc1 0x3FF7003#26 = .wrSvbk true 0x03#8 ∧
  decode .basic 0x1C0005A#26 = .wrWram0 false 0xC000#16 0x5A#8 ∧
  decode .noCart 0x2FFFF00#26 = .rdFfff true

/-- spec/30_encoding.md R103: the routing, stated on address bits, with the relative address of each window. -/
def Obligations.RouteIsBitPatterns : Prop :=
  ∀ a : Addr,
    (route a = .rom ↔ field a.toNat 15 15 = 0) ∧
    (route a = .xram ↔ field a.toNat 15 13 = 0b101) ∧
    (route a = .wram ↔ field a.toNat 15 13 = 0b110) ∧
    (route a = .hram ↔ field a.toNat 15 7 = 0b111111111 ∧ field a.toNat 6 0 ≠ 0b1111111) ∧
    (route a = .svbk ↔ a.toNat = 0xFF70) ∧
    (route a = .openBus ↔ (0x8000 ≤ a.toNat ∧ a.toNat ≤ 0x9FFF) ∨ (0xE000 ≤ a.toNat ∧ a.toNat ≤ 0xFF6F) ∨
      (0xFF71 ≤ a.toNat ∧ a.toNat ≤ 0xFF7F) ∨ a.toNat = 0xFFFF) ∧
    (route a = .xram → rel a 0xA000 = field a.toNat 12 0) ∧
    (route a = .wram → rel a 0xC000 = field a.toNat 12 0) ∧
    (route a = .hram → rel a 0xFF80 = field a.toNat 6 0)

/-! ## The machine as a whole -/

/-- spec/45_bus_router_openbus_observer.md R240, R241: a queued transaction is decoded in the state it meets and run, once
its host-clock sample is taken; nothing queued, nothing happens; a host move is made.
That transactions come as a list is the spec's decisions D2 and D32, that the list stands in the state the model's (log entry
2). -/
def Obligations.StepRunsDecoded : Prop :=
  ∀ s : State,
    (s.queue = [] → step s = .next s) ∧
    (∀ r rest, s.queue = .transaction r :: rest →
      step s = exec (decode s.view r.word) { s with queue := rest, now := r.now }) ∧
    (∀ m rest, s.queue = .host m :: rest → step s = hostMove m { s with queue := rest })

/-- spec/70_reset_and_hazards.md R304, R310: the context before the first attach.
The mode with no cartridge is the spec's decision D22; that the machine starts there is the model's (log entry 3). -/
def Obligations.ResetIsEmptyContext : Prop :=
  State.reset.cart = none ∧ State.reset.cgb = false ∧ wramLen State.reset.cgb = 0x2000 ∧
    (∀ i, Memory.read State.reset.wram i = 0x00#8 ∧ Memory.read State.reset.hram i = 0x00#8) ∧
    svbkIndex State.reset.svbk = 0#3 ∧ State.reset.readObserver = none ∧
    State.reset.writeObserver = none ∧
    ∀ u, ReadsAs (.rdSvbk u) State.reset State.reset 0xFF70#16 0xFF#8

/-- The invariant holds at reset. With no cartridge it says that `HOST_HZ` is at least 1 (spec/00_scope.md R7,
spec/43_rtc.md R201; its value is left open, log entry 4) and that the zeroed work RAM and high RAM of
spec/70_reset_and_hazards.md R304, R310 are in canonical form.
The invariant is the model's reading of those rules; that the machine starts in this context is the model's (log
entry 3). -/
def Obligations.ResetMeetsInvariant : Prop := State.reset.Inv

/-- spec/10_state.md R22, R27, R31, R37, spec/41_mbc1.md R165, spec/42_mbc3.md R194: every step, of a transaction or of the
host, keeps the invariant: a cartridge whose header is its ROM's, with the right checksum, and validated; arrays in canonical
form and within their lengths, bank registers not 0, RTC registers in range.
Where the ROM holds its header's fields is the model's (log entry 9). -/
def Obligations.StepKeepsInvariant : Prop :=
  ∀ s t : State, s.Inv → step s = .next t → t.Inv

/-- spec/45_bus_router_openbus_observer.md R262: in every legal state every transaction, whatever its word, its other rules
and its allowed host-clock sample, answers a next state and returns a byte.
The spec marks R262 as derived; the clock premise is its decision D4 (R209). -/
def Obligations.EveryTransactionAnswers : Prop :=
  ∀ (s : State) (r : Request) (rest : List Input), s.Inv → s.queue = .transaction r :: rest →
    ((decode s.view r.word).updateRtc = true → ∀ c m, s.HasMbc3 c m → m.lastUpdateTime ≤ r.now) →
      ∃ t v, step s = .next t ∧ t.returned = some v

/-- spec/43_rtc.md R209: an advance whose sample is below the timestamp is refused, and nothing else is refused so.
The refusal is the spec's decision D4 (log entry 7). -/
def Obligations.BackwardsClockIsRefused : Prop :=
  ∀ (i : Instr) (s : State),
    exec i s = .refused .hostClockBackwards ↔
      i.updateRtc = true ∧ ∃ c r, s.HasMbc3 c r ∧ s.now < r.lastUpdateTime

/-- spec/30_encoding.md R102, spec/45_bus_router_openbus_observer.md R255: whatever else the rules bag holds changes nothing. -/
def Obligations.OtherRulesAreIgnored : Prop :=
  ∀ (s : State) (r : Request) (o : List Nat) (rest : List Input),
    step { s with queue := .transaction { r with otherRules := o } :: rest } =
      step { s with queue := .transaction r :: rest }

/-! ## No cartridge, Basic -/

/-- spec/40_cartridge_common_basic.md R133 to R136: with no cartridge, both windows read 0xFF and drop writes. -/
def Obligations.NoCartridgeIsOpenBus : Prop :=
  ∀ (s : State) (u : Bool) (a : Addr) (d : Byte), s.cart = none →
    ReadsAs (.rdRomNocart u a) s s a 0xFF#8 ∧ WritesAs (.wrRomNocart u a d) s s a d 0xFF#8 ∧
    ReadsAs (.rdXramNocart u a) s s a 0xFF#8 ∧ WritesAs (.wrXramNocart u a d) s s a d 0xFF#8

/-- spec/40_cartridge_common_basic.md R137, R138: Basic reads the flat ROM image, and drops writes to it. -/
def Obligations.BasicRomWindow : Prop :=
  ∀ (s : State) (c : Cart) (u : Bool) (a : Addr) (d : Byte), s.cart = some c → c.ctrl = .basic →
    ReadsAs (.rdRomBasic u a) s s a
      (if a.toNat < 0x8000 * 2 ^ c.header.romSize.toNat then Memory.read c.rom a.toNat else 0xFF#8) ∧
    WritesAs (.wrRomBasic u a d) s s a d 0xFF#8

/-- spec/40_cartridge_common_basic.md R139, R141: Basic external RAM is read and stored where there is RAM, open bus beyond. -/
def Obligations.BasicXramWindow : Prop :=
  ∀ (s : State) (c : Cart) (u : Bool) (a : Addr) (d : Byte), s.cart = some c → c.ctrl = .basic →
    (a.toNat - 0xA000 < c.header.xramLen →
      ReadsAs (.rdXramBasic u a) s s a (Memory.read c.xram (a.toNat - 0xA000)) ∧
      WritesAs (.wrXramBasic u a d) s
        { s with cart := some { c with xram := Memory.write c.xram (a.toNat - 0xA000) d } } a d d) ∧
    (c.header.xramLen ≤ a.toNat - 0xA000 →
      ReadsAs (.rdXramBasic u a) s s a 0xFF#8 ∧ WritesAs (.wrXramBasic u a d) s s a d 0xFF#8)

/-- spec/30_encoding.md R119, R120: the length and the number of banks of ROM and external RAM, by the header's codes.
spec/40_cartridge_common_basic.md R140: the sizes a validated Basic cartridge has. -/
def Obligations.BasicSizes : Prop :=
  ∀ h : Header,
    (h.romLen = 0x8000 * 2 ^ h.romSize.toNat ∧ h.romBanks = 2 * 2 ^ h.romSize.toNat) ∧
    (h.ramSize = 0x00#8 → h.xramLen = 0 ∧ h.xramBanks = 0) ∧
    (h.ramSize = 0x02#8 → h.xramLen = 0x2000 ∧ h.xramBanks = 1) ∧
    (h.ramSize = 0x03#8 → h.xramLen = 0x8000 ∧ h.xramBanks = 4) ∧
    (h.ramSize = 0x04#8 → h.xramLen = 0x20000 ∧ h.xramBanks = 16) ∧
    (h.ramSize = 0x05#8 → h.xramLen = 0x10000 ∧ h.xramBanks = 8) ∧
    (h.valid = true → h.cartridgeType = 0x00#8 ∨ h.cartridgeType = 0x01#8 ∨ h.cartridgeType = 0x02#8 →
      h.romLen = 0x8000 ∧ (h.cartridgeType = 0x00#8 → h.xramLen = 0) ∧
      (h.ramSize = 0x00#8 → h.xramLen = 0) ∧ (h.ramSize = 0x02#8 → h.xramLen = 0x2000) ∧
      (h.ramSize = 0x00#8 ∨ h.ramSize = 0x02#8))

/-- spec/40_cartridge_common_basic.md R142(a): on a legal Basic cartridge every read of the ROM window, decoded from its
address, returns `ROM[a]`. -/
def Obligations.BasicRomIsFlat : Prop :=
  ∀ (s : State) (c : Cart) (u : Bool) (a : Addr), s.Inv → s.cart = some c → c.ctrl = .basic →
    a.toNat ≤ 0x7FFF → ReadsAs (decodeRead s.view u a) s s a (Memory.read c.rom a.toNat)

/-! ## MBC1 -/

/-- spec/41_mbc1.md R150 to R153: each command write sets its one register, by its mask and promotion, and returns
`ACK_CTRL` of the value stored; nothing else changes. -/
def Obligations.Mbc1CommandsSetOneRegister : Prop :=
  ∀ (s : State) (c : Cart) (r : Mbc1) (u : Bool) (a : Addr) (d : Byte), s.HasMbc1 c r →
    WritesAs (.wrRamenMbc1 u a d) s
      (s.mbc1Set c { r with ramEnable := decide (d.toNat % 16 = 0x0A) }) a d
      (Config.ackCtrl .mbc1 .ramen d (if d.toNat % 16 = 0x0A then 0x01#8 else 0x00#8)) ∧
    WritesAs (.wrRombMbc1 u a d) s
      (s.mbc1Set c { r with romBank := BitVec.ofNat 5 (max (d.toNat % 32) 1) }) a d
      (Config.ackCtrl .mbc1 .romb d (BitVec.ofNat 8 (max (d.toNat % 32) 1))) ∧
    WritesAs (.wrRambMbc1 u a d) s
      (s.mbc1Set c { r with ramBank := BitVec.ofNat 2 (d.toNat % 4) }) a d
      (Config.ackCtrl .mbc1 .ramb d (BitVec.ofNat 8 (d.toNat % 4))) ∧
    WritesAs (.wrModeMbc1 u a d) s
      (s.mbc1Set c { r with mode := BitVec.ofNat 1 (d.toNat % 2) }) a d
      (Config.ackCtrl .mbc1 .mode d (BitVec.ofNat 8 (d.toNat % 2)))

/-- spec/41_mbc1.md R155 to R158, R164: the two ROM regions show the effective banks, modulo the number of banks; the
offset is always inside the ROM.
The mask on the fixed region is the spec's decision D17. -/
def Obligations.Mbc1RomBanks : Prop :=
  ∀ (s : State) (c : Cart) (r : Mbc1) (u : Bool) (a : Addr), s.HasMbc1 c r →
    ReadsAs (.rdRom0Mbc1 u a) s s a
      (Memory.read c.rom
        ((if r.mode = 0#1 then 0 else r.ramBank.toNat * 32 % (2 * 2 ^ c.header.romSize.toNat)) * 0x4000 +
          a.toNat % 0x4000)) ∧
    ReadsAs (.rdRomXMbc1 u a) s s a
      (Memory.read c.rom
        ((r.ramBank.toNat * 32 + r.romBank.toNat) % (2 * 2 ^ c.header.romSize.toNat) * 0x4000 +
          a.toNat % 0x4000))

/-- spec/41_mbc1.md R159 to R163: with the gate closed the window is open bus; with it open, the byte at the bank's offset,
and inside the window that offset is outside the RAM exactly when there is no RAM.
The range test and the returned byte are the spec's decisions D18 and D16. -/
def Obligations.Mbc1XramWindow : Prop :=
  ∀ (s : State) (c : Cart) (r : Mbc1) (u : Bool) (a : Addr) (d : Byte) (off : Nat), s.HasMbc1 c r →
    0xA000 ≤ a.toNat → a.toNat ≤ 0xBFFF →
    off = (if r.mode = 1#1 ∧ 0x2000 < c.header.xramLen then r.ramBank.toNat else 0) * 0x2000 +
      (a.toNat - 0xA000) →
    (r.ramEnable = false ∨ c.header.xramLen = 0 →
      ReadsAs (.rdXramMbc1 u a) s s a 0xFF#8 ∧ WritesAs (.wrXramMbc1 u a d) s s a d 0xFF#8) ∧
    (r.ramEnable = true → c.header.xramLen ≠ 0 →
      off < c.header.xramLen ∧
      ReadsAs (.rdXramMbc1 u a) s s a (Memory.read c.xram off) ∧
      WritesAs (.wrXramMbc1 u a d) s
        { s with cart := some { c with xram := Memory.write c.xram off d } } a d d)

/-! ## MBC3 -/

/-- spec/42_mbc3.md R170 to R172: each command write sets its one register, after the pre-step. -/
def Obligations.Mbc3CommandsSetOneRegister : Prop :=
  ∀ (s : State) (c : Cart) (r p : Mbc3) (u : Bool) (a : Addr) (d : Byte), s.HasMbc3 c r → s.ClockFine u →
    p = (if u then r.advance s.hostHz s.now else r) →
    WritesAs (.wrRamenMbc3 u a d) s
      (s.mbc3Set c { p with ramTimerEnable := decide (d.toNat % 16 = 0x0A) }) a d
      (Config.ackCtrl .mbc3 .ramen d (if d.toNat % 16 = 0x0A then 0x01#8 else 0x00#8)) ∧
    WritesAs (.wrRombMbc3 u a d) s
      (s.mbc3Set c { p with romBank := BitVec.ofNat 7 (max (d.toNat % 128) 1) }) a d
      (Config.ackCtrl .mbc3 .romb d (BitVec.ofNat 8 (max (d.toNat % 128) 1))) ∧
    WritesAs (.wrSelMbc3 u a d) s
      (s.mbc3Set c { p with sel := BitVec.ofNat 4 (d.toNat % 16) }) a d
      (Config.ackCtrl .mbc3 .sel d (BitVec.ofNat 8 (d.toNat % 16)))

/-- spec/42_mbc3.md R173 to R175, R184: the latch state machine, after the pre-step: 0x00 arms, 0x01 latches if armed and
disarms, any other byte disarms. -/
def Obligations.Mbc3LatchMachine : Prop :=
  ∀ (s : State) (c : Cart) (r p : Mbc3) (u : Bool) (a : Addr) (d : Byte), s.HasMbc3 c r → s.ClockFine u →
    p = (if u then r.advance s.hostHz s.now else r) →
    WritesAs (.wrLatch0Mbc3 u a) s (s.mbc3Set c { p with latchState := 1#1 }) a 0x00#8
      (Config.ackCtrl .mbc3 .latch 0x00#8 0x01#8) ∧
    (r.latchState = 1#1 →
      WritesAs (.wrLatch1Mbc3 u a) s (s.mbc3Set c { p with latched := p.live, latchState := 0#1 }) a 0x01#8
        (Config.ackCtrl .mbc3 .latch 0x01#8 0x00#8)) ∧
    (r.latchState = 0#1 →
      WritesAs (.wrLatch1Mbc3 u a) s (s.mbc3Set c { p with latchState := 0#1 }) a 0x01#8
        (Config.ackCtrl .mbc3 .latch 0x01#8 0x00#8)) ∧
    WritesAs (.wrLatchXMbc3 u a d) s (s.mbc3Set c { p with latchState := 0#1 }) a d
      (Config.ackCtrl .mbc3 .latch d 0x00#8)

/-- spec/42_mbc3.md R176, R177: the fixed region is `ROM[a]`, the switchable one the bank modulo the number of banks.
The spec's decision D10: the source gives no MBC3 ROM mapping. -/
def Obligations.Mbc3RomBanks : Prop :=
  ∀ (s : State) (c : Cart) (r p : Mbc3) (u : Bool) (a : Addr), s.HasMbc3 c r → s.ClockFine u →
    p = (if u then r.advance s.hostHz s.now else r) →
    (a.toNat ≤ 0x3FFF → ReadsAs (.rdRom0Mbc3 u a) s (s.mbc3Set c p) a (Memory.read c.rom a.toNat)) ∧
    ReadsAs (.rdRomXMbc3 u a) s (s.mbc3Set c p) a
      (Memory.read c.rom
        (r.romBank.toNat % (2 * 2 ^ c.header.romSize.toNat) * 0x4000 + a.toNat % 0x4000))

/-- spec/42_mbc3.md R179, R180, R191, R192: with the gate closed, or an unassigned selector, the window is open bus.
The spec's decisions D13 (closed gate) and D11 (unassigned selectors). -/
def Obligations.Mbc3WindowIsOpenBus : Prop :=
  ∀ (s : State) (c : Cart) (r p : Mbc3) (u : Bool) (a : Addr) (d : Byte), s.HasMbc3 c r → s.ClockFine u →
    p = (if u then r.advance s.hostHz s.now else r) →
    (r.ramTimerEnable = false →
      ReadsAs (.rdXramMbc3Off u a) s (s.mbc3Set c p) a 0xFF#8 ∧
      WritesAs (.wrXramMbc3Off u a d) s (s.mbc3Set c p) a d 0xFF#8) ∧
    (r.ramTimerEnable = true →
      (4 ≤ r.sel.toNat ∧ r.sel.toNat ≤ 7) ∨ (13 ≤ r.sel.toNat ∧ r.sel.toNat ≤ 15) →
      ReadsAs (.rdXramMbc3Rsv u a) s (s.mbc3Set c p) a 0xFF#8 ∧
      WritesAs (.wrXramMbc3Rsv u a d) s (s.mbc3Set c p) a d 0xFF#8)

/-- spec/42_mbc3.md R181 to R183: a RAM selector wraps onto the populated banks; with no RAM the window is open bus.
The spec's decisions D12 (wrap, no RAM) and D16 (returned byte). -/
def Obligations.Mbc3XramBanks : Prop :=
  ∀ (s : State) (c : Cart) (r p : Mbc3) (u : Bool) (a : Addr) (d : Byte) (off : Nat),
    s.HasMbc3 c r → s.ClockFine u → p = (if u then r.advance s.hostHz s.now else r) →
    r.ramTimerEnable = true → r.sel.toNat ≤ 3 → 0xA000 ≤ a.toNat → a.toNat ≤ 0xBFFF →
    off = r.sel.toNat % (c.header.xramLen / 0x2000) * 0x2000 + (a.toNat - 0xA000) →
    (c.header.xramLen = 0 →
      ReadsAs (.rdXramMbc3Ram u a) s (s.mbc3Set c p) a 0xFF#8 ∧
      WritesAs (.wrXramMbc3Ram u a d) s (s.mbc3Set c p) a d 0xFF#8) ∧
    (c.header.xramLen ≠ 0 →
      ReadsAs (.rdXramMbc3Ram u a) s (s.mbc3Set c p) a (Memory.read c.xram off) ∧
      WritesAs (.wrXramMbc3Ram u a d) s
        { s with cart := some { c with xram := Memory.write c.xram off d, ctrl := .mbc3 p } } a d d)

/-- spec/42_mbc3.md R185: the window shows the latched register the selector names, at every address.
That it does so on every MBC3 cartridge, with a timer or without, is the spec's decision D14 (log entry 15). -/
def Obligations.Mbc3ReadsLatchedRegister : Prop :=
  ∀ (s : State) (c : Cart) (r p : Mbc3) (u : Bool) (a : Addr), s.HasMbc3 c r → s.ClockFine u →
    p = (if u then r.advance s.hostHz s.now else r) → r.ramTimerEnable = true →
    (r.sel = 0x8#4 → ReadsAs (.rdRtcMbc3 u a) s (s.mbc3Set c p) a r.latched.s) ∧
    (r.sel = 0x9#4 → ReadsAs (.rdRtcMbc3 u a) s (s.mbc3Set c p) a r.latched.m) ∧
    (r.sel = 0xA#4 → ReadsAs (.rdRtcMbc3 u a) s (s.mbc3Set c p) a r.latched.h) ∧
    (r.sel = 0xB#4 → ReadsAs (.rdRtcMbc3 u a) s (s.mbc3Set c p) a r.latched.dl) ∧
    (r.sel = 0xC#4 → ReadsAs (.rdRtcMbc3 u a) s (s.mbc3Set c p) a r.latched.dh)

/-- spec/42_mbc3.md R186 to R190: a write sets the live register the selector names, normalised, and returns what it
stored; no other register, latched ones among them, changes.
The reduction of a byte out of range is the spec's decision D7, the returned byte D16; that MBC3 cartridges without a
timer have the registers too is D14 (log entry 15). -/
def Obligations.Mbc3WritesLiveRegister : Prop :=
  ∀ (s : State) (c : Cart) (r p : Mbc3) (u : Bool) (a : Addr) (d : Byte), s.HasMbc3 c r → s.ClockFine u →
    p = (if u then r.advance s.hostHz s.now else r) → r.ramTimerEnable = true →
    (r.sel = 0x8#4 →
      WritesAs (.wrRtcSMbc3 u a d) s
        (s.mbc3Set c { p with live := { p.live with s := BitVec.ofNat 8 (d.toNat % 60) } }) a d
        (BitVec.ofNat 8 (d.toNat % 60))) ∧
    (r.sel = 0x9#4 →
      WritesAs (.wrRtcMMbc3 u a d) s
        (s.mbc3Set c { p with live := { p.live with m := BitVec.ofNat 8 (d.toNat % 60) } }) a d
        (BitVec.ofNat 8 (d.toNat % 60))) ∧
    (r.sel = 0xA#4 →
      WritesAs (.wrRtcHMbc3 u a d) s
        (s.mbc3Set c { p with live := { p.live with h := BitVec.ofNat 8 (d.toNat % 24) } }) a d
        (BitVec.ofNat 8 (d.toNat % 24))) ∧
    (r.sel = 0xB#4 →
      WritesAs (.wrRtcDlMbc3 u a d) s (s.mbc3Set c { p with live := { p.live with dl := d } }) a d d) ∧
    (r.sel = 0xC#4 →
      WritesAs (.wrRtcDhMbc3 u a d) s
        (s.mbc3Set c { p with live := { p.live with dh := d &&& 0xC1#8 } }) a d (d &&& 0xC1#8))

/-! ## The RTC engine -/

/-- spec/43_rtc.md R202: while halted an advance changes no register but the timestamp, which goes to `now`.
That the timestamp goes to `now` is the spec's decision D6. -/
def Obligations.HaltedAdvanceOnlyMovesTimestamp : Prop :=
  ∀ (r : Mbc3) (hz now : Nat), r.live.dh.getLsbD 6 = true →
    r.advance hz now = { r with lastUpdateTime := now }

/-- spec/43_rtc.md R203, R206: a running advance adds the whole seconds: the registers stay in range, hold the sum modulo 512
days, the overflow flag is set if the sum reached 512 days and else kept, the halt flag stays clear, and the timestamp moves by
the seconds counted; no other register changes. -/
def Obligations.RunningAdvanceAddsSeconds : Prop :=
  ∀ (r q : Mbc3) (hz now n t : Nat), 1 ≤ hz → r.live.canonical = true → r.live.dh.getLsbD 6 = false →
    r.lastUpdateTime ≤ now → q = r.advance hz now → n = (now - r.lastUpdateTime) / hz →
    t = r.live.s.toNat + 60 * r.live.m.toNat + 3600 * r.live.h.toNat +
      86400 * (r.live.dl.toNat + 256 * (r.live.dh.toNat % 2)) + n →
    q.live.canonical = true ∧
    q.live.s.toNat + 60 * q.live.m.toNat + 3600 * q.live.h.toNat +
      86400 * (q.live.dl.toNat + 256 * (q.live.dh.toNat % 2)) = t % (512 * 86400) ∧
    q.live.dh.getLsbD 6 = false ∧
    (q.live.dh.getLsbD 7 = true ↔ r.live.dh.getLsbD 7 = true ∨ 512 * 86400 ≤ t) ∧
    q = { r with live := q.live, lastUpdateTime := r.lastUpdateTime + n * hz }

/-- spec/43_rtc.md R204, R205: after a running advance the rest not yet counted is the part of a second, and the timestamp
has moved by whole seconds. -/
def Obligations.AdvanceKeepsFraction : Prop :=
  ∀ (r q : Mbc3) (hz now : Nat), 1 ≤ hz → r.live.dh.getLsbD 6 = false → r.lastUpdateTime ≤ now →
    q = r.advance hz now →
    q.lastUpdateTime ≤ now ∧ now - q.lastUpdateTime = (now - r.lastUpdateTime) % hz ∧
      now - q.lastUpdateTime < hz ∧ q.lastUpdateTime % hz = r.lastUpdateTime % hz

/-- spec/43_rtc.md R208: two running advances leave the same registers and timestamp as the last alone.
The spec marks the rule as derived from R203 to R207. -/
def Obligations.AdvanceIsAdditive : Prop :=
  ∀ (r : Mbc3) (hz t1 t2 : Nat), 1 ≤ hz → r.live.canonical = true → r.live.dh.getLsbD 6 = false →
    r.lastUpdateTime ≤ t1 → t1 ≤ t2 → (r.advance hz t1).advance hz t2 = r.advance hz t2

/-- spec/43_rtc.md R212: adding `n` seconds at once is adding one second by ripple carries `n` times.
The spec marks the rule as derived. -/
def Obligations.SumIsRippleCarries : Prop :=
  ∀ (r : Rtc) (n : Nat), r.canonical = true → (Rtc.rippleSecond^[n]) r = r.addSeconds n

/-- spec/43_rtc.md R200, R211: whatever the transaction, the timestamp moves only by the pre-step, and the live registers only
by the pre-step and by a write of an RTC register; on anything but an MBC3 there is no pre-step.
The spec marks R211 as derived; that the advance runs on MBC3 cartridges without a timer too is its decision D14 (log
entry 15). -/
def Obligations.ClockMovesOnlyByPrestep : Prop :=
  ∀ (i : Instr) (s t : State), exec i s = .next t →
    (∀ c r p, s.HasMbc3 c r → p = (if i.updateRtc then r.advance s.hostHz s.now else r) →
      ∃ c' r', t.HasMbc3 c' r' ∧ r'.lastUpdateTime = p.lastUpdateTime ∧
        (isRtcWrite i = false → r'.live = p.live)) ∧
    (s.mbc3? = none → t.mbc3? = none)

/-- spec/43_rtc.md R207: the overflow flag stays set until a write of `DH`, which puts bit 7 of its byte there. -/
def Obligations.OverflowIsSticky : Prop :=
  ∀ (i : Instr) (s t : State) (c c' : Cart) (r r' : Mbc3), s.HasMbc3 c r → exec i s = .next t →
    t.HasMbc3 c' r' →
    (r.live.dh.getLsbD 7 = true → (∀ u a d, i ≠ .wrRtcDhMbc3 u a d) → r'.live.dh.getLsbD 7 = true) ∧
    (∀ u a d, i = .wrRtcDhMbc3 u a d → r'.live.dh.getLsbD 7 = d.getLsbD 7)

/-! ## What no transaction does -/

/-- spec/42_mbc3.md R194(c)(d), spec/10_state.md R34, R35: the latched registers change only by a 0x01 write to the latch
window while armed, to the live ones; the latch state changes only by a write to that window. -/
def Obligations.LatchedChangeOnlyByLatch : Prop :=
  ∀ (i : Instr) (s t : State) (c c' : Cart) (r r' : Mbc3), s.HasMbc3 c r → exec i s = .next t →
    t.HasMbc3 c' r' →
    (r'.latched = r.latched ∨
      ∃ u a, i = .wrLatch1Mbc3 u a ∧ r.latchState = 1#1 ∧ r'.latched = r'.live) ∧
    (isLatchWrite i = false → r'.latchState = r.latchState)

/-- spec/40_cartridge_common_basic.md R131, spec/70_reset_and_hazards.md R308: no transaction changes the ROM, the header or
the CGB mode. -/
def Obligations.RomAndModeAreFixed : Prop :=
  ∀ (i : Instr) (s t : State), exec i s = .next t →
    t.cart.map (fun c => (c.header, c.rom)) = s.cart.map (fun c => (c.header, c.rom)) ∧ t.cgb = s.cgb

/-- spec/20_memory.md R84, spec/41_mbc1.md R165(f), spec/42_mbc3.md R194(e): while the gate is closed no transaction changes a
byte of external RAM, and the live RTC registers change only by the advance. -/
def Obligations.ClosedGateProtects : Prop :=
  ∀ (i : Instr) (s t : State), s.gateClosed → exec i s = .next t →
    (∀ k, Memory.read t.xram k = Memory.read s.xram k) ∧
    (∀ c r c' r', s.HasMbc3 c r → t.HasMbc3 c' r' →
      r'.live = (if i.updateRtc then r.advance s.hostHz s.now else r).live)

/-- spec/41_mbc1.md R165(b), spec/42_mbc3.md R194(b): each controller register changes only by its own command. -/
def Obligations.RegistersChangeOnlyByOwnCommand : Prop :=
  ∀ (i : Instr) (s t : State), exec i s = .next t →
    (∀ c r, s.HasMbc1 c r → ∃ c' r', t.HasMbc1 c' r' ∧
      ((∀ u a d, i ≠ .wrRamenMbc1 u a d) → r'.ramEnable = r.ramEnable) ∧
      ((∀ u a d, i ≠ .wrRombMbc1 u a d) → r'.romBank = r.romBank) ∧
      ((∀ u a d, i ≠ .wrRambMbc1 u a d) → r'.ramBank = r.ramBank) ∧
      ((∀ u a d, i ≠ .wrModeMbc1 u a d) → r'.mode = r.mode)) ∧
    (∀ c r, s.HasMbc3 c r → ∃ c' r', t.HasMbc3 c' r' ∧
      ((∀ u a d, i ≠ .wrRamenMbc3 u a d) → r'.ramTimerEnable = r.ramTimerEnable) ∧
      ((∀ u a d, i ≠ .wrRombMbc3 u a d) → r'.romBank = r.romBank) ∧
      ((∀ u a d, i ≠ .wrSelMbc3 u a d) → r'.sel = r.sel))

/-- spec/44_memory_wram_hram_svbk.md R231(e), spec/10_state.md R24, R38 to R40: only the storing kinds change a byte of an
array or SVBK; observers, the clock rate, the Executive, the queue and the report are left alone by every transaction. -/
def Obligations.OnlyStoresChangeMemory : Prop :=
  ∀ (i : Instr) (s t : State), exec i s = .next t →
    (storesXram i = false → ∀ k, Memory.read t.xram k = Memory.read s.xram k) ∧
    (storesWram i = false → ∀ k, Memory.read t.wram k = Memory.read s.wram k) ∧
    (storesHram i = false → ∀ k, Memory.read t.hram k = Memory.read s.hram k) ∧
    (storesSvbk i = false → t.svbk = s.svbk) ∧
    t.readObserver = s.readObserver ∧ t.writeObserver = s.writeObserver ∧ t.hostHz = s.hostHz ∧
    t.executiveActive = s.executiveActive ∧ t.queue = s.queue ∧ t.now = s.now ∧ t.report = s.report

/-- spec/44_memory_wram_hram_svbk.md R223, R225, R227: a store to work RAM or high RAM changes the one byte it names, and
no other. -/
def Obligations.WorkRamStoreChangesOneByte : Prop :=
  ∀ (s t : State) (u : Bool) (a : Addr) (d : Byte), s.Inv →
    (exec (.wrWram0 u a d) s = .next t →
      ∀ k, Memory.read t.wram k = if k = rel a 0xC000 then d else Memory.read s.wram k) ∧
    (exec (.wrWramX u a d) s = .next t →
      ∀ k, Memory.read t.wram k = if k = wramXOffset s.cgb s.svbk a then d else Memory.read s.wram k) ∧
    (exec (.wrHram u a d) s = .next t →
      ∀ k, Memory.read t.hram k = if k = rel a 0xFF80 then d else Memory.read s.hram k)

/-- spec/40_cartridge_common_basic.md R141, spec/41_mbc1.md R163, spec/42_mbc3.md R183: a store to external RAM changes at most
the one byte its bank and address name, and no other. -/
def Obligations.XramStoreChangesOneByte : Prop :=
  ∀ (s t : State) (c : Cart) (u : Bool) (a : Addr) (d : Byte), s.Inv → s.cart = some c →
    (exec (.wrXramBasic u a d) s = .next t →
      ∀ k, k ≠ rel a 0xA000 → Memory.read t.xram k = Memory.read s.xram k) ∧
    (∀ r, c.ctrl = .mbc1 r → exec (.wrXramMbc1 u a d) s = .next t →
      ∀ k, k ≠ mbc1RamOffset r c.header.xramLen a → Memory.read t.xram k = Memory.read s.xram k) ∧
    (∀ r, c.ctrl = .mbc3 r → exec (.wrXramMbc3Ram u a d) s = .next t →
      ∀ k, mbc3RamOffset r c.header.xramBanks a ≠ some k → Memory.read t.xram k = Memory.read s.xram k)

/-! ## Work RAM, high RAM, SVBK, open bus -/

/-- spec/44_memory_wram_hram_svbk.md R221, R222, R224: bank 0 below 0xD000, the selected bank above. -/
def Obligations.WorkRamReads : Prop :=
  ∀ (s : State) (u : Bool) (a : Addr), s.ClockFine u →
    (0xC000 ≤ a.toNat → a.toNat ≤ 0xCFFF →
      ReadsAs (.rdWram0 u a) s (s.prestepped u) a (Memory.read s.wram (a.toNat - 0xC000))) ∧
    (0xD000 ≤ a.toNat → a.toNat ≤ 0xDFFF →
      ReadsAs (.rdWramX u a) s (s.prestepped u) a
        (Memory.read s.wram
          ((if s.cgb then max (s.svbk.toNat % 8) 1 else 1) * 0x1000 + a.toNat % 0x1000)))

/-- spec/44_memory_wram_hram_svbk.md R223, R225: the same mapping for writes, which return the byte.
That the write returns the byte is the spec's decision D16. -/
def Obligations.WorkRamWrites : Prop :=
  ∀ (s : State) (u : Bool) (a : Addr) (d : Byte), s.ClockFine u →
    (0xC000 ≤ a.toNat → a.toNat ≤ 0xCFFF →
      WritesAs (.wrWram0 u a d) s
        { s.prestepped u with wram := Memory.write s.wram (a.toNat - 0xC000) d } a d d) ∧
    (0xD000 ≤ a.toNat → a.toNat ≤ 0xDFFF →
      WritesAs (.wrWramX u a d) s
        { s.prestepped u with
          wram := Memory.write s.wram
            ((if s.cgb then max (s.svbk.toNat % 8) 1 else 1) * 0x1000 + a.toNat % 0x1000) d } a d d)

/-- spec/44_memory_wram_hram_svbk.md R226, R227: high RAM is read and stored at `a - 0xFF80`.
That the write returns the byte is the spec's decision D16. -/
def Obligations.HighRamAccess : Prop :=
  ∀ (s : State) (u : Bool) (a : Addr) (d : Byte), s.ClockFine u → 0xFF80 ≤ a.toNat → a.toNat ≤ 0xFFFE →
    ReadsAs (.rdHram u a) s (s.prestepped u) a (Memory.read s.hram (a.toNat - 0xFF80)) ∧
    WritesAs (.wrHram u a d) s
      { s.prestepped u with hram := Memory.write s.hram (a.toNat - 0xFF80) d } a d d

/-- spec/44_memory_wram_hram_svbk.md R228, R229: SVBK reads with bits 7 to 3 set and stores bits 2 to 0 in CGB mode; in DMG
mode it reads 0xFF and stores nothing.
That a DMG write stores nothing is the spec's decision D24. -/
def Obligations.SvbkAccess : Prop :=
  ∀ (s : State) (u : Bool) (d : Byte), s.ClockFine u →
    (s.cgb = true →
      ReadsAs (.rdSvbk u) s (s.prestepped u) 0xFF70#16 (0xF8#8 ||| (s.svbk &&& 0x07#8)) ∧
      WritesAs (.wrSvbk u d) s
        { s.prestepped u with svbk := (s.svbk &&& 0xF8#8) ||| (d &&& 0x07#8) } 0xFF70#16 d
        (0xF8#8 ||| (d &&& 0x07#8))) ∧
    (s.cgb = false →
      ReadsAs (.rdSvbk u) s (s.prestepped u) 0xFF70#16 0xFF#8 ∧
      WritesAs (.wrSvbk u d) s (s.prestepped u) 0xFF70#16 d 0xFF#8)

/-- spec/44_memory_wram_hram_svbk.md R231(d): the round trip of a byte through SVBK.
The spec marks the law as derived. -/
def Obligations.SvbkRoundTrip : Prop :=
  ∀ (s t t' : State) (u u' : Bool) (d : Byte), s.readObserver = none →
    exec (.wrSvbk u d) s = .next t → exec (.rdSvbk u') t = .next t' →
      t'.returned = some (if s.cgb then 0xF8#8 ||| (d &&& 0x07#8) else 0xFF#8)

/-- spec/44_memory_wram_hram_svbk.md R232: in DMG mode 0xC000 to 0xDFFF is `WRAM[a - 0xC000]`, whatever SVBK holds.
The spec marks the rule as derived; that the write returns the byte is its decision D16 (log entry 15). -/
def Obligations.DmgWorkRamIsFlat : Prop :=
  ∀ (s : State) (u : Bool) (a : Addr) (d : Byte), s.ClockFine u → s.cgb = false →
    0xC000 ≤ a.toNat → a.toNat ≤ 0xDFFF →
      ReadsAs (decodeRead s.view u a) s (s.prestepped u) a (Memory.read s.wram (a.toNat - 0xC000)) ∧
      WritesAs (decodeWrite s.view u a d) s
        { s.prestepped u with wram := Memory.write s.wram (a.toNat - 0xC000) d } a d d

/-- spec/44_memory_wram_hram_svbk.md R231(a): a byte written to work RAM or high RAM is read back at the same address.
The spec marks the law as derived. -/
def Obligations.WorkRamReadsBack : Prop :=
  ∀ (s t t' : State) (u u' : Bool) (a : Addr) (d : Byte), s.Inv → s.readObserver = none →
    (0xC000 ≤ a.toNat ∧ a.toNat ≤ 0xDFFF) ∨ (0xFF80 ≤ a.toNat ∧ a.toNat ≤ 0xFFFE) →
    exec (decodeWrite s.view u a d) s = .next t → exec (decodeRead t.view u' a) t = .next t' →
      t'.returned = some d

/-- spec/45_bus_router_openbus_observer.md R245, R247 to R249: an open address reads 0xFF and drops the write; only the pre-step
has run. -/
def Obligations.OpenAddressesAnswer : Prop :=
  ∀ (s : State) (u : Bool) (a : Addr) (d : Byte), s.ClockFine u →
    ReadsAs (.rdOpen u a) s (s.prestepped u) a 0xFF#8 ∧
    WritesAs (.wrOpen u a d) s (s.prestepped u) a d 0xFF#8 ∧
    ReadsAs (.rdFfff u) s (s.prestepped u) 0xFFFF#16 0xFF#8 ∧
    WritesAs (.wrFfff u d) s (s.prestepped u) 0xFFFF#16 d 0xFF#8

/-! ## Reads, repetition, observers -/

/-- spec/20_memory.md R80: a read changes the block in exactly one way: with `updateRTC` set and an MBC3 attached, the advance
runs; otherwise nothing but the output ports changes. -/
def Obligations.ReadsChangeOnlyTheClock : Prop :=
  ∀ (i : Instr) (s t : State), i.isWrite = false → exec i s = .next t →
    (i.updateRtc = false ∨ s.mbc3? = none → SameBlock s t) ∧
    (∀ c r, s.HasMbc3 c r → i.updateRtc = true →
      SameBlock (s.mbc3Set c (r.advance s.hostHz s.now)) t)

/-- spec/20_memory.md R91: without an advance, repeating a transaction leaves the same state and returns the same byte, the
MBC3 latch window excepted.
The spec marks the rule as derived. -/
def Obligations.RepeatingChangesNothing : Prop :=
  ∀ (i : Instr) (s t : State), s.Inv → isLatchWrite i = false → i.updateRtc = false ∨ s.mbc3? = none →
    exec i s = .next t → exec i t = .next t

/-- spec/45_bus_router_openbus_observer.md R251 to R253: every transaction calls the observer of its kind, if installed, once,
with its address and values; the read observer's answer is the byte returned.
What the read observer is to the block is the spec's decision D26; its answer is a free value (log entry 6). -/
def Obligations.ObserverSeesEveryTransaction : Prop :=
  ∀ (i : Instr) (s t : State), exec i s = .next t →
    (i.isWrite = false → ∃ v,
      (s.readObserver = none → t.observed = none ∧ t.returned = some v) ∧
      (∀ o, s.readObserver = some o →
        t.observed = some (.onRead o i.addr v) ∧ t.returned = some (Config.readObserver o i.addr v))) ∧
    (i.isWrite = true → ∃ act, t.returned = some act ∧
      (s.writeObserver = none → t.observed = none) ∧
      (∀ o, s.writeObserver = some o → t.observed = some (.onWrite o i.addr i.data act)))

/-- spec/45_bus_router_openbus_observer.md R254: whichever observers are installed, the block's state after a transaction is
the same.
An observer of the model has no access to the state: the spec's decision D26 (log entry 6). -/
def Obligations.ObserversChangeNoState : Prop :=
  ∀ (i : Instr) (s t : State) (o p : Option Nat), exec i s = .next t →
    ∃ v ob, exec i { s with readObserver := o, writeObserver := p } =
      .next { t with readObserver := o, writeObserver := p, returned := v, observed := ob }

/-! ## Loading and attaching -/

/-- spec/70_reset_and_hazards.md R301, R303, R306: attach (or detach) puts the cartridge in as it is, zeroes the memories and
sets the bank index to 0; observers stay. spec/30_encoding.md R117: afterwards the mode is CGB exactly when a cartridge is
attached whose CGB flag is 0x80 or 0xC0, and work RAM has that mode's length. spec/10_state.md R22: a cartridge whose header
is not its ROM's, fails its checksum or fails the validator is not attached.
Detach, and what attach keeps, are the spec's decision D27, the bank index 0 its D23; where the ROM holds the header's fields is the model's
(log entry 9); what else a legal cartridge is, and that the rejection is a refusal, are the model's (log entry 10). -/
def Obligations.AttachResetsMemory : Prop :=
  ∀ s : State,
    (∀ o : Option Cart, (∀ c, o = some c → c.legal = true) →
      ∃ t, hostMove (match o with
          | some c => .attach c
          | none => .detach) s = .next t ∧
        t.cart = o ∧
        (t.cgb = true ↔ ∃ c, o = some c ∧ (c.header.cgbFlag = 0x80#8 ∨ c.header.cgbFlag = 0xC0#8)) ∧
        wramLen t.cgb = (if t.cgb then 0x8000 else 0x2000) ∧
        (∀ i, Memory.read t.wram i = 0x00#8 ∧ Memory.read t.hram i = 0x00#8) ∧
        svbkIndex t.svbk = 0#3 ∧ svbkRead t.svbk = 0xF8#8 ∧ t.readObserver = s.readObserver ∧
        t.writeObserver = s.writeObserver ∧ t.hostHz = s.hostHz ∧ t.queue = s.queue ∧ t.report = none) ∧
    (∀ c : Cart,
      headerChecksum c.headerImage ≠ Memory.read c.rom 0x014D ∨ parseHeader c.headerImage ≠ c.header ∨
          c.header.valid = false →
        hostMove (.attach c) s = .refused .illegalHostInput)

/-- spec/70_reset_and_hazards.md R305, spec/60_exceptions.md R281: a failed load reports its error and leaves the context with no
cartridge, answering open bus.
That a prior cartridge is dropped and the memories are reset is the spec's decision D27. -/
def Obligations.FailedLoadLeavesNoCartridge : Prop :=
  ∀ (s : State) (file : List Byte) (save : Option Save) (now : Nat) (e : HostError),
    makeCart file now = .error e →
      ∃ t, hostMove (.load file save now) s = .next t ∧ t.report = some e ∧ t.cart = none ∧
        (∀ i, Memory.read t.wram i = 0x00#8 ∧ Memory.read t.hram i = 0x00#8) ∧
        ∀ u a, ReadsAs (.rdRomNocart u a) t t a 0xFF#8 ∧ ReadsAs (.rdXramNocart u a) t t a 0xFF#8

/-- spec/60_exceptions.md R272, R273, R275: the checks of a load, each with its error, and the legal cartridge when all pass; R276:
their order. The header offsets are the model's (spec/30_encoding.md R123, log entry 9). -/
def Obligations.LoadChecksInOrder : Prop :=
  ∀ (file : List Byte) (now : Nat),
    (file.length < 0x0150 → makeCart file now = .error .malformedHeader) ∧
    (0x0150 ≤ file.length →
      (headerChecksum file ≠ file.getD 0x014D 0x00#8 → makeCart file now = .error .malformedHeader) ∧
      (typeLine (parseHeader file).cartridgeType = none → makeCart file now = .error .malformedHeader) ∧
      (headerChecksum file = file.getD 0x014D 0x00#8 →
        typeLine (parseHeader file).cartridgeType ≠ none →
          ((parseHeader file).valid = false → makeCart file now = .error .headerMismatch) ∧
          ((parseHeader file).valid = true → file.length < (parseHeader file).romLen →
            makeCart file now = .error .ioFailure) ∧
          ((parseHeader file).valid = true → (parseHeader file).romLen ≤ file.length →
            ∃ c, makeCart file now = .ok c ∧ c.legal = true)))

/-- spec/60_exceptions.md R277: the closed form of the header checksum. -/
def Obligations.ChecksumClosedForm : Prop :=
  ∀ file : List Byte, 0x014D ≤ file.length →
    headerChecksum file = 0#8 - 25#8 - ((file.drop 0x0134).take 25).foldr (· + ·) 0#8

/-- spec/70_reset_and_hazards.md R302, R310: what finalize gives a cartridge: the file's header (spec/10_state.md R22), the
controller of its type, the file's bytes, zeroed external RAM and default registers.
The MBC3 defaults are the spec's decisions D5, D8 and D9; where the header's fields stand is the model's (log entry 9). -/
def Obligations.FinalizeDefaults : Prop :=
  ∀ (file : List Byte) (now : Nat) (c : Cart), makeCart file now = .ok c →
    c.header = parseHeader file ∧ (typeLine c.header.cartridgeType).map (·.variant) = some c.ctrl.variant ∧
    (∀ i, i < c.header.romLen → Memory.read c.rom i = file.getD i 0x00#8) ∧
    (∀ i, Memory.read c.xram i = 0x00#8) ∧
    (∀ r, c.ctrl = .mbc1 r → r.ramEnable = false ∧ r.romBank = 1#5 ∧ r.ramBank = 0#2 ∧ r.mode = 0#1) ∧
    (∀ r, c.ctrl = .mbc3 r → r.ramTimerEnable = false ∧ r.romBank = 1#7 ∧ r.sel = 0#4 ∧
      r.live = ⟨0#8, 0#8, 0#8, 0#8, 0#8⟩ ∧ r.latched = ⟨0#8, 0#8, 0#8, 0#8, 0#8⟩ ∧ r.latchState = 0#1 ∧
      r.lastUpdateTime = now)

/-- spec/60_exceptions.md R278 to R280: what the three validators accept. spec/30_encoding.md R118: which controller a
type code gets, none for an unlisted code, and which types have a battery and a timer.
The MBC1 and MBC3 validators are the spec's decision D20, the split of 0x19 to 0x1B its D19. -/
def Obligations.ValidatorsAccept : Prop :=
  ∀ h : Header,
    (h.valid = true ↔
      (h.cartridgeType.toNat = 0x00 ∧ h.romSize.toNat = 0 ∧ h.ramSize.toNat = 0) ∨
      ((h.cartridgeType.toNat = 0x01 ∨ h.cartridgeType.toNat = 0x02) ∧ h.romSize.toNat = 0 ∧
        (h.ramSize.toNat = 0 ∨ h.ramSize.toNat = 2)) ∨
      ((h.cartridgeType.toNat = 0x19 ∨ h.cartridgeType.toNat = 0x0F ∨ h.cartridgeType.toNat = 0x11) ∧
        h.romSize.toNat ≤ 6 ∧ h.ramSize.toNat = 0) ∨
      ((h.cartridgeType.toNat = 0x1A ∨ h.cartridgeType.toNat = 0x1B ∨ h.cartridgeType.toNat = 0x10 ∨
          h.cartridgeType.toNat = 0x12 ∨ h.cartridgeType.toNat = 0x13) ∧
        h.romSize.toNat ≤ 6 ∧ (h.ramSize.toNat = 0 ∨ h.ramSize.toNat = 2 ∨ h.ramSize.toNat = 3))) ∧
    ((typeLine h.cartridgeType).map (·.variant) = some .basic ↔
      h.cartridgeType.toNat = 0x00 ∨ h.cartridgeType.toNat = 0x01 ∨ h.cartridgeType.toNat = 0x02) ∧
    ((typeLine h.cartridgeType).map (·.variant) = some .mbc1 ↔
      h.cartridgeType.toNat = 0x19 ∨ h.cartridgeType.toNat = 0x1A ∨ h.cartridgeType.toNat = 0x1B) ∧
    ((typeLine h.cartridgeType).map (·.variant) = some .mbc3 ↔
      h.cartridgeType.toNat = 0x0F ∨ h.cartridgeType.toNat = 0x10 ∨ h.cartridgeType.toNat = 0x11 ∨
        h.cartridgeType.toNat = 0x12 ∨ h.cartridgeType.toNat = 0x13) ∧
    (h.hasBattery = true ↔ h.cartridgeType.toNat = 0x02 ∨ h.cartridgeType.toNat = 0x1B ∨
      h.cartridgeType.toNat = 0x0F ∨ h.cartridgeType.toNat = 0x10 ∨ h.cartridgeType.toNat = 0x13) ∧
    (h.hasTimer = true ↔ h.cartridgeType.toNat = 0x0F ∨ h.cartridgeType.toNat = 0x10)

/-- spec/70_reset_and_hazards.md R301 to R303: a good load attaches the cartridge that was made, to zeroed work RAM and high
RAM with bank index 0, and reports nothing. spec/60_exceptions.md R291, R292: with a legal save the cartridge attached is that
one with the save restored; it is legal, and its save image is the save's own bytes.
Where the file holds the header's fields is the model's (log entry 9); what a legal save is, is the model's (log entry 10);
what attach keeps is the spec's decision D27, the bank index 0 its D23. That a save restores nothing of the controller but the
RTC follows from R291: the bank registers never persist. -/
def Obligations.SaveRoundTrip : Prop :=
  ∀ (s : State) (file : List Byte) (now : Nat) (c : Cart), makeCart file now = .ok c →
    (∃ t, hostMove (.load file none now) s = .next t ∧ t.cart = some c ∧ t.report = none ∧
      (∀ i, Memory.read t.wram i = 0x00#8 ∧ Memory.read t.hram i = 0x00#8) ∧ svbkIndex t.svbk = 0#3 ∧
      t.readObserver = s.readObserver ∧ t.writeObserver = s.writeObserver ∧ t.hostHz = s.hostHz ∧
      t.queue = s.queue) ∧
    ∀ sv : Save, sv.legal c.header = true →
      ∃ t c', hostMove (.load file (some sv) now) s = .next t ∧ t.cart = some c' ∧ c'.legal = true ∧
        t.report = none ∧ (∀ i, Memory.read t.wram i = 0x00#8 ∧ Memory.read t.hram i = 0x00#8) ∧
        svbkIndex t.svbk = 0#3 ∧ t.readObserver = s.readObserver ∧ t.writeObserver = s.writeObserver ∧
        t.hostHz = s.hostHz ∧ t.queue = s.queue ∧
        c'.header = c.header ∧ c'.rom = c.rom ∧ c'.saveImage = sv.xram ∧ (sv.rtc = none → c'.ctrl = c.ctrl) ∧
        (∀ m v, c.ctrl = .mbc3 m → sv.rtc = some v →
          c'.ctrl = .mbc3 { m with live := v.live, latched := v.latched, lastUpdateTime := v.time }) ∧
        (∀ r v, c'.ctrl = .mbc3 r → sv.rtc = some v →
          r.live = v.live ∧ r.latched = v.latched ∧ r.lastUpdateTime = v.time)
end

