-- ==== Sys2Proof/Laws/Encoding.lean ====
section
/-! SUPPORT. The fields of a packed transaction word. -/

namespace Sys2Proof

/-- The number of a packed word. -/
theorem pack_toNat (u w : Bool) (a : Addr) (d : Byte) :
    (pack u w a d).toNat = u.toNat * 2 ^ 25 + w.toNat * 2 ^ 24 + a.toNat * 2 ^ 8 + d.toNat := by
  have ha := a.isLt
  have hd := d.isLt
  have hu := u.toNat_le
  have hw := w.toNat_le
  simp only [pack, BitVec.toNat_ofNat]
  omega

@[simp] theorem pack_u (u w : Bool) (a : Addr) (d : Byte) : (pack u w a d).u = u := by
  have ha := a.isLt
  have hd := d.isLt
  simp only [TWord.u, field, pack_toNat]
  cases u <;> cases w <;> simp <;> omega

@[simp] theorem pack_w (u w : Bool) (a : Addr) (d : Byte) : (pack u w a d).w = w := by
  have ha := a.isLt
  have hd := d.isLt
  simp only [TWord.w, field, pack_toNat]
  cases u <;> cases w <;> simp <;> omega

@[simp] theorem pack_a (u w : Bool) (a : Addr) (d : Byte) : (pack u w a d).a = a := by
  have ha := a.isLt
  have hd := d.isLt
  apply BitVec.eq_of_toNat_eq
  simp only [TWord.a, field, pack_toNat, BitVec.toNat_ofNat]
  cases u <;> cases w <;> simp <;> omega

@[simp] theorem pack_d (u w : Bool) (a : Addr) (d : Byte) : (pack u w a d).d = d := by
  have ha := a.isLt
  have hd := d.isLt
  apply BitVec.eq_of_toNat_eq
  simp only [TWord.d, field, pack_toNat, BitVec.toNat_ofNat]
  cases u <;> cases w <;> simp <;> omega

theorem u_toNat (t : TWord) : t.u.toNat = t.toNat / 2 ^ 25 % 2 := by
  simp only [TWord.u, field]
  rcases Nat.mod_two_eq_zero_or_one (t.toNat / 2 ^ 25) with h | h <;> simp_all

theorem w_toNat (t : TWord) : t.w.toNat = t.toNat / 2 ^ 24 % 2 := by
  simp only [TWord.w, field]
  rcases Nat.mod_two_eq_zero_or_one (t.toNat / 2 ^ 24) with h | h <;> simp_all

/-- A word is its fields packed. -/
theorem pack_fields (t : TWord) : pack t.u t.w t.a t.d = t := by
  have ht := t.isLt
  apply BitVec.eq_of_toNat_eq
  simp only [pack_toNat, u_toNat, w_toNat, TWord.a, TWord.d, field, BitVec.toNat_ofNat]
  omega

/-- Two words with the same fields are the same word. -/
theorem pack_inj {u u' w w' : Bool} {a a' : Addr} {d d' : Byte} (h : pack u w a d = pack u' w' a' d') :
    u = u' ∧ w = w' ∧ a = a' ∧ d = d' :=
  ⟨by simpa using congrArg TWord.u h, by simpa using congrArg TWord.w h,
    by simpa using congrArg TWord.a h, by simpa using congrArg TWord.d h⟩

end Sys2Proof
end

