-- ==== Sys2Proof/Laws/Memory.lean ====
section
/-! SUPPORT. The laws of the sparse arrays: read after write, the canonical form, the byte string of a file. -/

namespace Sys2Proof.Machine

@[simp] theorem Memory.read_nil (i : Nat) : read [] i = 0x00#8 := rfl

theorem Memory.read_cons (c : Host.Cell) (rest : Memory) (i : Nat) :
    read (c :: rest) i = if c.1 = i then c.2 else read rest i := rfl

/-- An offset below every listed one reads as unlisted. -/
theorem Memory.read_below {m : Memory} {i : Nat} (h : ∀ c ∈ m, i < c.1) : read m i = unlisted := by
  induction m with
  | nil => rfl
  | cons c rest ih =>
    have hc := h c (by simp)
    rw [read_cons, if_neg (by omega), ih fun x hx => h x (by simp [hx])]

/-- Reading through `cons` when nothing behind it lists the offset set. -/
theorem Memory.read_cons_cell {m : Memory} {i : Nat} (v : Byte) (j : Nat) (h : ∀ c ∈ m, i < c.1) :
    read (cons i v m) j = if j = i then v else read m j := by
  unfold cons
  split
  · rename_i hv
    split
    · rename_i hj
      rw [hj, read_below h, hv]
    · rfl
  · rw [read_cons]
    simp only [eq_comm]

theorem Memory.wf_tail {c : Host.Cell} {m : Memory} (h : wf (c :: m)) : wf m :=
  ⟨(List.pairwise_cons.1 h.1).2, fun x hx => h.2 x (by simp [hx])⟩

theorem Memory.wf_head {c : Host.Cell} {m : Memory} (h : wf (c :: m)) : ∀ x ∈ m, c.1 < x.1 :=
  (List.pairwise_cons.1 h.1).1

/-- Read after write: the written offset gives the byte written, every other one what it gave before. -/
theorem Memory.read_write {m : Memory} (h : wf m) (i j : Nat) (v : Byte) :
    read (write m i v) j = if j = i then v else read m j := by
  induction m with
  | nil => simpa [write] using read_cons_cell (m := []) v j (by simp)
  | cons c rest ih =>
    have hh := wf_head h
    unfold write
    split
    · exact read_cons_cell v j (by
        intro x hx
        rcases List.mem_cons.1 hx with rfl | hx
        · assumption
        · have := hh x hx; omega)
    · split
      · rename_i hi
        subst hi
        rw [read_cons_cell v j hh, read_cons]
        split
        · rfl
        · rw [if_neg (by omega)]
      · rw [read_cons, read_cons, ih (wf_tail h)]
        split
        · rw [if_neg (by omega)]
        · rfl

theorem Memory.wf_cons {m : Memory} {i : Nat} (v : Byte) (h : wf m) (hi : ∀ c ∈ m, i < c.1) :
    wf (cons i v m) := by
  unfold cons
  split
  · exact h
  · refine ⟨List.pairwise_cons.2 ⟨hi, h.1⟩, ?_⟩
    intro c hc
    rcases List.mem_cons.1 hc with rfl | hc
    · assumption
    · exact h.2 c hc

theorem Memory.mem_cons_offset {m : Memory} {i : Nat} {v : Byte} {c : Host.Cell} (h : c ∈ cons i v m) :
    c.1 = i ∨ c ∈ m := by
  unfold cons at h
  split at h
  · exact Or.inr h
  · rcases List.mem_cons.1 h with rfl | h
    · exact Or.inl rfl
    · exact Or.inr h

/-- A write lists no offset but the one written and those listed before. -/
theorem Memory.mem_write_offset {m : Memory} {i : Nat} {v : Byte} {c : Host.Cell} (h : c ∈ write m i v) :
    c.1 = i ∨ c ∈ m := by
  induction m with
  | nil => simpa using mem_cons_offset h
  | cons x rest ih =>
    unfold write at h
    split at h
    · exact mem_cons_offset h
    · split at h
      · rcases mem_cons_offset h with h | h
        · exact Or.inl h
        · exact Or.inr (List.mem_cons_of_mem _ h)
      · rcases List.mem_cons.1 h with rfl | h
        · exact Or.inr (by simp)
        · rcases ih h with h | h
          · exact Or.inl h
          · exact Or.inr (List.mem_cons_of_mem _ h)

/-- A write keeps the canonical form. -/
theorem Memory.wf_write {m : Memory} (h : wf m) (i : Nat) (v : Byte) : wf (write m i v) := by
  induction m with
  | nil => exact wf_cons v h (by simp)
  | cons c rest ih =>
    have hh := wf_head h
    unfold write
    split
    · refine wf_cons v h fun x hx => ?_
      rcases List.mem_cons.1 hx with rfl | hx
      · assumption
      · have := hh x hx; omega
    · split
      · rename_i hi
        exact wf_cons v (wf_tail h) (hi ▸ hh)
      · have ih := ih (wf_tail h)
        refine ⟨List.pairwise_cons.2 ⟨fun x hx => ?_, ih.1⟩, fun x hx => ?_⟩
        · rcases mem_write_offset hx with e | hx
          · omega
          · exact hh x hx
        · rcases List.mem_cons.1 hx with rfl | hx
          · exact h.2 x (by simp)
          · exact ih.2 x hx

/-- A write inside the array keeps it canonical and within its length. -/
theorem Memory.fits_write {m : Memory} {len i : Nat} (h : fits m len) (hi : i < len) (v : Byte) :
    fits (write m i v) len := by
  refine ⟨wf_write h.1 i v, fun c hc => ?_⟩
  rcases mem_write_offset hc with e | hc
  · omega
  · exact h.2 c hc

theorem Memory.fits_nil (len : Nat) : fits [] len := ⟨⟨List.Pairwise.nil, by simp⟩, by simp⟩

/-- The offsets a byte string lists. -/
theorem Memory.mem_ofBytes {bytes : List Byte} {i : Nat} {c : Host.Cell} (h : c ∈ ofBytes i bytes) :
    i ≤ c.1 ∧ c.1 < i + bytes.length := by
  induction bytes generalizing i with
  | nil => simp [ofBytes] at h
  | cons b rest ih =>
    rcases mem_cons_offset h with e | h
    · simp; omega
    · have := ih h
      simp; omega

/-- The array of a byte string is canonical and within the string's length. -/
theorem Memory.fits_ofBytes (bytes : List Byte) : fits (ofBytes 0 bytes) bytes.length := by
  refine ⟨?_, fun c hc => by have := mem_ofBytes hc; omega⟩
  suffices ∀ i, wf (ofBytes i bytes) from this 0
  induction bytes with
  | nil => exact fun _ => (fits_nil 0).1
  | cons b rest ih =>
    exact fun i => wf_cons b (ih (i + 1)) fun c hc => by have := mem_ofBytes hc; omega

/-- Byte `j` of the array of a byte string is byte `j` of the string. -/
theorem Memory.read_ofBytes (bytes : List Byte) (j : Nat) : read (ofBytes 0 bytes) j = bytes.getD j 0x00#8 := by
  suffices ∀ i, read (ofBytes i bytes) (i + j) = bytes.getD j 0x00#8 by simpa using this 0
  induction bytes generalizing j with
  | nil => intro i; simp [ofBytes]
  | cons b rest ih =>
    intro i
    unfold ofBytes
    rw [read_cons_cell b (i + j) fun c hc => by have := mem_ofBytes hc; omega]
    cases j with
    | zero => simp
    | succ j => rw [if_neg (by omega), show i + (j + 1) = (i + 1) + j by omega, ih j]; simp

end Sys2Proof.Machine
end

