-- ==== Sys2Proof/Laws/State.lean ====
section
/-! SUPPORT. One lemma per field and update of the state, and what the updates leave to the view. -/

namespace Sys2Proof.Machine

variable (s : State) (c : Cart) (k : Controller) (m : Memory) (a : Addr) (v d act : Byte)
  (r : Request) (rest : List Input)

@[simp] theorem setCtrl_cart : (s.setCtrl c k).cart = some { c with ctrl := k } := rfl
@[simp] theorem setCtrl_wram : (s.setCtrl c k).wram = s.wram := rfl
@[simp] theorem setCtrl_hram : (s.setCtrl c k).hram = s.hram := rfl
@[simp] theorem setCtrl_svbk : (s.setCtrl c k).svbk = s.svbk := rfl
@[simp] theorem setCtrl_readObserver : (s.setCtrl c k).readObserver = s.readObserver := rfl
@[simp] theorem setCtrl_writeObserver : (s.setCtrl c k).writeObserver = s.writeObserver := rfl
@[simp] theorem setCtrl_hostHz : (s.setCtrl c k).hostHz = s.hostHz := rfl
@[simp] theorem setCtrl_executiveActive : (s.setCtrl c k).executiveActive = s.executiveActive := rfl
@[simp] theorem setCtrl_queue : (s.setCtrl c k).queue = s.queue := rfl
@[simp] theorem setCtrl_now : (s.setCtrl c k).now = s.now := rfl
@[simp] theorem setCtrl_returned : (s.setCtrl c k).returned = s.returned := rfl
@[simp] theorem setCtrl_observed : (s.setCtrl c k).observed = s.observed := rfl
@[simp] theorem setCtrl_report : (s.setCtrl c k).report = s.report := rfl

@[simp] theorem setXram_cart : (s.setXram c m).cart = some { c with xram := m } := rfl
@[simp] theorem setXram_wram : (s.setXram c m).wram = s.wram := rfl
@[simp] theorem setXram_hram : (s.setXram c m).hram = s.hram := rfl
@[simp] theorem setXram_svbk : (s.setXram c m).svbk = s.svbk := rfl
@[simp] theorem setXram_readObserver : (s.setXram c m).readObserver = s.readObserver := rfl
@[simp] theorem setXram_writeObserver : (s.setXram c m).writeObserver = s.writeObserver := rfl
@[simp] theorem setXram_hostHz : (s.setXram c m).hostHz = s.hostHz := rfl
@[simp] theorem setXram_executiveActive : (s.setXram c m).executiveActive = s.executiveActive := rfl
@[simp] theorem setXram_queue : (s.setXram c m).queue = s.queue := rfl
@[simp] theorem setXram_now : (s.setXram c m).now = s.now := rfl

@[simp] theorem finishRead_cart : (s.finishRead a v).cart = s.cart := rfl
@[simp] theorem finishRead_wram : (s.finishRead a v).wram = s.wram := rfl
@[simp] theorem finishRead_hram : (s.finishRead a v).hram = s.hram := rfl
@[simp] theorem finishRead_svbk : (s.finishRead a v).svbk = s.svbk := rfl
@[simp] theorem finishRead_readObserver : (s.finishRead a v).readObserver = s.readObserver := rfl
@[simp] theorem finishRead_writeObserver : (s.finishRead a v).writeObserver = s.writeObserver := rfl
@[simp] theorem finishRead_hostHz : (s.finishRead a v).hostHz = s.hostHz := rfl
@[simp] theorem finishRead_executiveActive : (s.finishRead a v).executiveActive = s.executiveActive := rfl
@[simp] theorem finishRead_queue : (s.finishRead a v).queue = s.queue := rfl
@[simp] theorem finishRead_now : (s.finishRead a v).now = s.now := rfl
@[simp] theorem finishRead_report : (s.finishRead a v).report = s.report := rfl
@[simp] theorem finishRead_returned : (s.finishRead a v).returned = some (s.observedValue a v) := rfl
@[simp] theorem finishRead_observed :
    (s.finishRead a v).observed = s.readObserver.map fun o => .onRead o a v := rfl

@[simp] theorem finishWrite_cart : (s.finishWrite a d act).cart = s.cart := rfl
@[simp] theorem finishWrite_wram : (s.finishWrite a d act).wram = s.wram := rfl
@[simp] theorem finishWrite_hram : (s.finishWrite a d act).hram = s.hram := rfl
@[simp] theorem finishWrite_svbk : (s.finishWrite a d act).svbk = s.svbk := rfl
@[simp] theorem finishWrite_readObserver : (s.finishWrite a d act).readObserver = s.readObserver := rfl
@[simp] theorem finishWrite_writeObserver : (s.finishWrite a d act).writeObserver = s.writeObserver := rfl
@[simp] theorem finishWrite_hostHz : (s.finishWrite a d act).hostHz = s.hostHz := rfl
@[simp] theorem finishWrite_executiveActive :
    (s.finishWrite a d act).executiveActive = s.executiveActive := rfl
@[simp] theorem finishWrite_queue : (s.finishWrite a d act).queue = s.queue := rfl
@[simp] theorem finishWrite_now : (s.finishWrite a d act).now = s.now := rfl
@[simp] theorem finishWrite_report : (s.finishWrite a d act).report = s.report := rfl
@[simp] theorem finishWrite_returned : (s.finishWrite a d act).returned = some act := rfl
@[simp] theorem finishWrite_observed :
    (s.finishWrite a d act).observed = s.writeObserver.map fun o => .onWrite o a d act := rfl

@[simp] theorem take_cart : (s.take r rest).cart = s.cart := rfl
@[simp] theorem take_wram : (s.take r rest).wram = s.wram := rfl
@[simp] theorem take_hram : (s.take r rest).hram = s.hram := rfl
@[simp] theorem take_svbk : (s.take r rest).svbk = s.svbk := rfl
@[simp] theorem take_readObserver : (s.take r rest).readObserver = s.readObserver := rfl
@[simp] theorem take_writeObserver : (s.take r rest).writeObserver = s.writeObserver := rfl
@[simp] theorem take_hostHz : (s.take r rest).hostHz = s.hostHz := rfl
@[simp] theorem take_executiveActive : (s.take r rest).executiveActive = s.executiveActive := rfl
@[simp] theorem take_queue : (s.take r rest).queue = rest := rfl
@[simp] theorem take_now : (s.take r rest).now = r.now := rfl
@[simp] theorem take_returned : (s.take r rest).returned = s.returned := rfl
@[simp] theorem take_observed : (s.take r rest).observed = s.observed := rfl
@[simp] theorem take_report : (s.take r rest).report = s.report := rfl
@[simp] theorem take_view : (s.take r rest).view = s.view := rfl

variable (o : Option Cart)

@[simp] theorem attach_cart : (s.attach o).cart = o := rfl
@[simp] theorem attach_wram : (s.attach o).wram = [] := rfl
@[simp] theorem attach_hram : (s.attach o).hram = [] := rfl
@[simp] theorem attach_svbk : (s.attach o).svbk = svbkInit (o.any (·.header.supportsCgb)) := rfl
@[simp] theorem attach_readObserver : (s.attach o).readObserver = s.readObserver := rfl
@[simp] theorem attach_writeObserver : (s.attach o).writeObserver = s.writeObserver := rfl
@[simp] theorem attach_hostHz : (s.attach o).hostHz = s.hostHz := rfl
@[simp] theorem attach_executiveActive : (s.attach o).executiveActive = s.executiveActive := rfl
@[simp] theorem attach_cgb : (s.attach o).cgb = o.any (·.header.supportsCgb) := rfl
@[simp] theorem attach_queue : (s.attach o).queue = s.queue := rfl
@[simp] theorem attach_now : (s.attach o).now = s.now := rfl

/-- The view after reset is the one `decodeTableWord` decodes with. -/
theorem reset_view : State.reset.view = .noCart := rfl

end Sys2Proof.Machine
end

