-- ==== Sys2Proof/Laws/Ops.lean ====
section
/-! SUPPORT. For each shared operation, everything it can do: what a next state of it means, and what it
leaves alone. -/

namespace Sys2Proof.Machine

/-! ## Composition and arrays -/

theorem andThen_next {α β : Type} {x : Res α} {f : α → Res β} {b : β} :
    andThen x f = .next b ↔ ∃ a, x = .next a ∧ f a = .next b := by
  cases x <;> simp [andThen]

theorem readArray_next {n : ArrayName} {len : Nat} {m : Memory} {off : Nat} {v : Byte} :
    readArray n len m off = .next v ↔ off < len ∧ v = Memory.read m off := by
  unfold readArray
  split <;> simp_all [eq_comm]

theorem writeArray_next {n : ArrayName} {len : Nat} {m m' : Memory} {off : Nat} {v : Byte} :
    writeArray n len m off v = .next m' ↔ off < len ∧ m' = Memory.write m off v := by
  unfold writeArray
  split <;> simp_all [eq_comm]

/-! ## Selecting the cartridge -/

theorem withNoCart_next {α : Type} {s : State} {k : Res α} {b : α} :
    s.withNoCart k = .next b ↔ s.cart = none ∧ k = .next b := by
  unfold State.withNoCart
  split <;> simp_all

theorem withBasic_next {α : Type} {s : State} {k : Cart → Res α} {b : α} :
    s.withBasic k = .next b ↔ ∃ c, s.cart = some c ∧ c.ctrl = .basic ∧ k c = .next b := by
  unfold State.withBasic
  split
  · simp_all
  · split <;> simp_all

theorem withMbc1_next {α : Type} {s : State} {k : Cart → Mbc1 → Res α} {b : α} :
    s.withMbc1 k = .next b ↔ ∃ c r, s.HasMbc1 c r ∧ k c r = .next b := by
  unfold State.withMbc1 State.HasMbc1
  cases s.cart with
  | none => simp
  | some c => cases hk : c.ctrl <;> simp [hk]

theorem withMbc3_next {α : Type} {s : State} {k : Cart → Mbc3 → Res α} {b : α} :
    s.withMbc3 k = .next b ↔ ∃ c r, s.HasMbc3 c r ∧ k c r = .next b := by
  unfold State.withMbc3 State.HasMbc3
  cases s.cart with
  | none => simp
  | some c => cases hk : c.ctrl <;> simp [hk]

theorem withWindow_next {α : Type} {s : State} {w : Window} {k : Cart → Mbc3 → Res α} {b : α} :
    s.withWindow w k = .next b ↔ ∃ c r, s.HasMbc3 c r ∧ r.window = w ∧ k c r = .next b := by
  simp only [State.withWindow, withMbc3_next]
  constructor
  · rintro ⟨c, r, h, e⟩
    split at e
    · exact ⟨c, r, h, by assumption, e⟩
    · cases e
  · rintro ⟨c, r, h, hw, e⟩
    exact ⟨c, r, h, by rw [if_pos hw, e]⟩

theorem withRtcWindow_next {α : Type} {s : State} {k : Cart → Mbc3 → RtcReg → Res α} {b : α} :
    s.withRtcWindow k = .next b ↔
      ∃ c r reg, s.HasMbc3 c r ∧ r.window = .rtc reg ∧ k c r reg = .next b := by
  simp only [State.withRtcWindow, withMbc3_next]
  constructor
  · rintro ⟨c, r, h, e⟩
    split at e
    · exact ⟨c, r, _, h, by assumption, e⟩
    · cases e
  · rintro ⟨c, r, reg, h, hw, e⟩
    exact ⟨c, r, h, by simp only [hw, e]⟩

/-! ## The pre-step -/

theorem prestep_next {u : Bool} {s t : State} :
    prestep u s = .next t ↔ s.clockOk u = true ∧ t = s.prestepped u := by
  unfold prestep
  split
  · rename_i h
    simp [h, eq_comm]
  · rename_i h
    simp [h]

/-- The pre-step moves only the live registers and the timestamp of an MBC3. -/
theorem prestepped_cases (s : State) (u : Bool) :
    s.prestepped u = s ∨
      ∃ c r, s.HasMbc3 c r ∧ s.prestepped u = s.setCtrl c (.mbc3 (r.prestep u s.hostHz s.now)) := by
  unfold State.prestepped State.HasMbc3
  split
  · exact Or.inl rfl
  · rename_i c hc
    split
    · rename_i r hr
      exact Or.inr ⟨c, r, ⟨hc, hr⟩, rfl⟩
    · exact Or.inl rfl

theorem prestepped_of_mbc3 {s : State} {c : Cart} {r : Mbc3} (h : s.HasMbc3 c r) (u : Bool) :
    s.prestepped u = s.mbc3Set c (r.prestep u s.hostHz s.now) := by
  simp [State.prestepped, h.1, h.2, State.setCtrl, State.mbc3Set]

theorem prestepped_of_mbc1 {s : State} {c : Cart} {r : Mbc1} (h : s.HasMbc1 c r) (u : Bool) :
    s.prestepped u = s := by
  simp [State.prestepped, h.1, h.2]

theorem prestepped_of_basic {s : State} {c : Cart} (h : s.cart = some c) (hb : c.ctrl = .basic) (u : Bool) :
    s.prestepped u = s := by
  simp [State.prestepped, h, hb]

theorem prestepped_of_none {s : State} (h : s.cart = none) (u : Bool) : s.prestepped u = s := by
  simp [State.prestepped, h]

theorem clockOk_of_mbc1 {s : State} {c : Cart} {r : Mbc1} (h : s.HasMbc1 c r) (u : Bool) :
    s.clockOk u = true := by
  simp [State.clockOk, h.1, h.2]

theorem clockOk_of_basic {s : State} {c : Cart} (h : s.cart = some c) (hb : c.ctrl = .basic) (u : Bool) :
    s.clockOk u = true := by
  simp [State.clockOk, h, hb]

theorem clockOk_of_none {s : State} (h : s.cart = none) (u : Bool) : s.clockOk u = true := by
  simp [State.clockOk, h]

/-- The pre-step leaves everything else of the registers alone. -/
theorem mbc3_prestep_frame (r : Mbc3) (u : Bool) (hz now : Nat) :
    (r.prestep u hz now).ramTimerEnable = r.ramTimerEnable ∧ (r.prestep u hz now).romBank = r.romBank ∧
      (r.prestep u hz now).sel = r.sel ∧ (r.prestep u hz now).latched = r.latched ∧
      (r.prestep u hz now).latchState = r.latchState := by
  unfold Mbc3.prestep Mbc3.advance
  split
  · split <;> simp
  · simp

@[simp] theorem prestep_window (r : Mbc3) (u : Bool) (hz now : Nat) :
    (r.prestep u hz now).window = r.window := by
  simp [Mbc3.window, (mbc3_prestep_frame r u hz now).1, (mbc3_prestep_frame r u hz now).2.2.1]

@[simp] theorem prestepped_wram (s : State) (u : Bool) : (s.prestepped u).wram = s.wram := by
  rcases prestepped_cases s u with h | ⟨c, r, _, h⟩ <;> simp [h]

@[simp] theorem prestepped_hram (s : State) (u : Bool) : (s.prestepped u).hram = s.hram := by
  rcases prestepped_cases s u with h | ⟨c, r, _, h⟩ <;> simp [h]

@[simp] theorem prestepped_svbk (s : State) (u : Bool) : (s.prestepped u).svbk = s.svbk := by
  rcases prestepped_cases s u with h | ⟨c, r, _, h⟩ <;> simp [h]

@[simp] theorem prestepped_readObserver (s : State) (u : Bool) :
    (s.prestepped u).readObserver = s.readObserver := by
  rcases prestepped_cases s u with h | ⟨c, r, _, h⟩ <;> simp [h]

@[simp] theorem prestepped_writeObserver (s : State) (u : Bool) :
    (s.prestepped u).writeObserver = s.writeObserver := by
  rcases prestepped_cases s u with h | ⟨c, r, _, h⟩ <;> simp [h]

@[simp] theorem prestepped_hostHz (s : State) (u : Bool) : (s.prestepped u).hostHz = s.hostHz := by
  rcases prestepped_cases s u with h | ⟨c, r, _, h⟩ <;> simp [h]

@[simp] theorem prestepped_queue (s : State) (u : Bool) : (s.prestepped u).queue = s.queue := by
  rcases prestepped_cases s u with h | ⟨c, r, _, h⟩ <;> simp [h]

@[simp] theorem prestepped_now (s : State) (u : Bool) : (s.prestepped u).now = s.now := by
  rcases prestepped_cases s u with h | ⟨c, r, _, h⟩ <;> simp [h]

@[simp] theorem prestepped_cgb (s : State) (u : Bool) : (s.prestepped u).cgb = s.cgb := by
  rcases prestepped_cases s u with h | ⟨c, r, hc, h⟩
  · rw [h]
  · simp [h, State.cgb, hc.1]

/-- The pre-step does not change what the decode sees. -/
@[simp] theorem prestepped_view (s : State) (u : Bool) : (s.prestepped u).view = s.view := by
  rcases prestepped_cases s u with h | ⟨c, r, hc, h⟩
  · rw [h]
  · have f := mbc3_prestep_frame r u s.hostHz s.now
    simp [h, State.view, hc.1, hc.2, f.1, f.2.2.1]

/-! ## The two transactions -/

/-- What a read transaction that answers has done. -/
theorem busRead_next {u : Bool} {a : Addr} {access : State → Res Byte} {s t : State} :
    busRead u a access s = .next t ↔
      s.clockOk u = true ∧
        ∃ v, access (s.prestepped u) = .next v ∧ t = (s.prestepped u).finishRead a v := by
  simp only [busRead, andThen_next, prestep_next]
  constructor
  · rintro ⟨s1, ⟨h, rfl⟩, v, hv, e⟩
    cases e
    exact ⟨h, v, hv, rfl⟩
  · rintro ⟨h, v, hv, rfl⟩
    exact ⟨_, ⟨h, rfl⟩, v, hv, rfl⟩

/-- What a write transaction that answers has done. -/
theorem busWrite_next {u : Bool} {a : Addr} {d : Byte} {access : State → Res (State × Byte)}
    {s t : State} :
    busWrite u a d access s = .next t ↔
      s.clockOk u = true ∧
        ∃ s2 act, access (s.prestepped u) = .next (s2, act) ∧ t = s2.finishWrite a d act := by
  simp only [busWrite, andThen_next, prestep_next]
  constructor
  · rintro ⟨s1, ⟨h, rfl⟩, ⟨s2, act⟩, hv, e⟩
    cases e
    exact ⟨h, s2, act, hv, rfl⟩
  · rintro ⟨h, s2, act, hv, rfl⟩
    exact ⟨_, ⟨h, rfl⟩, (s2, act), hv, rfl⟩

theorem mbc1Command_next {cmd : Command} {d : Byte} {f : Mbc1 → Mbc1} {g : Mbc1 → Byte} {s t : State}
    {act : Byte} :
    mbc1Command cmd d f g s = .next (t, act) ↔
      ∃ c r, s.HasMbc1 c r ∧ t = s.mbc1Set c (f r) ∧ act = Config.ackCtrl .mbc1 cmd d (g (f r)) := by
  simp only [mbc1Command, withMbc1_next, Host.Outcome.next.injEq, Prod.mk.injEq, @eq_comm _ t, @eq_comm _ act]
  rfl

theorem mbc3Command_next {cmd : Command} {d : Byte} {f : Mbc3 → Mbc3} {g : Mbc3 → Byte} {s t : State}
    {act : Byte} :
    mbc3Command cmd d f g s = .next (t, act) ↔
      ∃ c r, s.HasMbc3 c r ∧ t = s.mbc3Set c (f r) ∧ act = Config.ackCtrl .mbc3 cmd d (g (f r)) := by
  simp only [mbc3Command, withMbc3_next, Host.Outcome.next.injEq, Prod.mk.injEq, @eq_comm _ t, @eq_comm _ act]
  rfl

theorem rtcWrite_next {reg : RtcReg} {d : Byte} {s t : State} {act : Byte} :
    rtcWrite reg d s = .next (t, act) ↔
      ∃ c r, s.HasMbc3 c r ∧ r.window = .rtc reg ∧
        t = s.mbc3Set c { r with live := r.live.set reg (rtcWriteValue reg d) } ∧
        act = rtcWriteValue reg d := by
  simp only [rtcWrite, withWindow_next, Host.Outcome.next.injEq, Prod.mk.injEq, @eq_comm _ t, @eq_comm _ act]
  rfl

/-- A latched register set, then read. -/
@[simp] theorem rtc_get_set (r : Rtc) (reg : RtcReg) (v : Byte) : (r.set reg v).get reg = v := by
  cases reg <;> rfl

end Sys2Proof.Machine
end

