-- ==== Sys2Proof/Laws/Exec.lean ====
section
/-! SUPPORT. What any transaction that answers has done, said once for reads and once for writes. -/

namespace Sys2Proof.Machine

/-- A read that answers ran the pre-step, and then only returned a byte through the observer. -/
theorem exec_read_next {i : Instr} {s t : State} (hi : i.isWrite = false) (h : exec i s = .next t) :
    s.clockOk i.updateRtc = true ∧ ∃ v, t = (s.prestepped i.updateRtc).finishRead i.addr v := by
  cases i with
  | rdRomNocart u a => obtain ⟨hc, v, -, e⟩ := busRead_next.1 h; exact ⟨hc, v, e⟩
  | rdRomBasic u a => obtain ⟨hc, v, -, e⟩ := busRead_next.1 h; exact ⟨hc, v, e⟩
  | rdRom0Mbc1 u a => obtain ⟨hc, v, -, e⟩ := busRead_next.1 h; exact ⟨hc, v, e⟩
  | rdRomXMbc1 u a => obtain ⟨hc, v, -, e⟩ := busRead_next.1 h; exact ⟨hc, v, e⟩
  | rdRom0Mbc3 u a => obtain ⟨hc, v, -, e⟩ := busRead_next.1 h; exact ⟨hc, v, e⟩
  | rdRomXMbc3 u a => obtain ⟨hc, v, -, e⟩ := busRead_next.1 h; exact ⟨hc, v, e⟩
  | rdXramNocart u a => obtain ⟨hc, v, -, e⟩ := busRead_next.1 h; exact ⟨hc, v, e⟩
  | rdXramBasic u a => obtain ⟨hc, v, -, e⟩ := busRead_next.1 h; exact ⟨hc, v, e⟩
  | rdXramMbc1 u a => obtain ⟨hc, v, -, e⟩ := busRead_next.1 h; exact ⟨hc, v, e⟩
  | rdXramMbc3Off u a => obtain ⟨hc, v, -, e⟩ := busRead_next.1 h; exact ⟨hc, v, e⟩
  | rdXramMbc3Ram u a => obtain ⟨hc, v, -, e⟩ := busRead_next.1 h; exact ⟨hc, v, e⟩
  | rdRtcMbc3 u a => obtain ⟨hc, v, -, e⟩ := busRead_next.1 h; exact ⟨hc, v, e⟩
  | rdXramMbc3Rsv u a => obtain ⟨hc, v, -, e⟩ := busRead_next.1 h; exact ⟨hc, v, e⟩
  | rdWram0 u a => obtain ⟨hc, v, -, e⟩ := busRead_next.1 h; exact ⟨hc, v, e⟩
  | rdWramX u a => obtain ⟨hc, v, -, e⟩ := busRead_next.1 h; exact ⟨hc, v, e⟩
  | rdFfff u => obtain ⟨hc, v, -, e⟩ := busRead_next.1 h; exact ⟨hc, v, e⟩
  | rdHram u a => obtain ⟨hc, v, -, e⟩ := busRead_next.1 h; exact ⟨hc, v, e⟩
  | rdSvbk u => obtain ⟨hc, v, -, e⟩ := busRead_next.1 h; exact ⟨hc, v, e⟩
  | rdOpen u a => obtain ⟨hc, v, -, e⟩ := busRead_next.1 h; exact ⟨hc, v, e⟩
  | _ => simp [Instr.isWrite] at hi

/-- The block state `t` a write leaves, between pre-step and observer, when it meets `s`. -/
def WriteEffect (i : Instr) (s t : State) : Prop :=
  match i with
  | .wrRamenMbc1 _ _ d => ∃ c r, s.HasMbc1 c r ∧ t = s.mbc1Set c { r with ramEnable := enableCompare d }
  | .wrRombMbc1 _ _ d => ∃ c r, s.HasMbc1 c r ∧ t = s.mbc1Set c { r with romBank := mbc1RomBankOf d }
  | .wrRambMbc1 _ _ d => ∃ c r, s.HasMbc1 c r ∧ t = s.mbc1Set c { r with ramBank := mbc1RamBankOf d }
  | .wrModeMbc1 _ _ d => ∃ c r, s.HasMbc1 c r ∧ t = s.mbc1Set c { r with mode := mbc1ModeOf d }
  | .wrRamenMbc3 _ _ d =>
    ∃ c r, s.HasMbc3 c r ∧ t = s.mbc3Set c { r with ramTimerEnable := enableCompare d }
  | .wrRombMbc3 _ _ d => ∃ c r, s.HasMbc3 c r ∧ t = s.mbc3Set c { r with romBank := mbc3RomBankOf d }
  | .wrSelMbc3 _ _ d => ∃ c r, s.HasMbc3 c r ∧ t = s.mbc3Set c { r with sel := mbc3SelOf d }
  | .wrLatch0Mbc3 _ _ => ∃ c r, s.HasMbc3 c r ∧ t = s.mbc3Set c { r with latchState := 1#1 }
  | .wrLatch1Mbc3 _ _ => ∃ c r, s.HasMbc3 c r ∧
      t = s.mbc3Set c { (if r.latchState = 1#1 then r.latchCopy else r) with latchState := 0#1 }
  | .wrLatchXMbc3 _ _ _ => ∃ c r, s.HasMbc3 c r ∧ t = s.mbc3Set c { r with latchState := 0#1 }
  | .wrRtcSMbc3 _ _ d => ∃ c r, s.HasMbc3 c r ∧ r.window = .rtc .s ∧
      t = s.mbc3Set c { r with live := r.live.set .s (rtcWriteValue .s d) }
  | .wrRtcMMbc3 _ _ d => ∃ c r, s.HasMbc3 c r ∧ r.window = .rtc .m ∧
      t = s.mbc3Set c { r with live := r.live.set .m (rtcWriteValue .m d) }
  | .wrRtcHMbc3 _ _ d => ∃ c r, s.HasMbc3 c r ∧ r.window = .rtc .h ∧
      t = s.mbc3Set c { r with live := r.live.set .h (rtcWriteValue .h d) }
  | .wrRtcDlMbc3 _ _ d => ∃ c r, s.HasMbc3 c r ∧ r.window = .rtc .dl ∧
      t = s.mbc3Set c { r with live := r.live.set .dl (rtcWriteValue .dl d) }
  | .wrRtcDhMbc3 _ _ d => ∃ c r, s.HasMbc3 c r ∧ r.window = .rtc .dh ∧
      t = s.mbc3Set c { r with live := r.live.set .dh (rtcWriteValue .dh d) }
  | .wrXramBasic _ a d => ∃ c, s.cart = some c ∧ c.ctrl = .basic ∧
      ((rel a 0xA000 < c.header.xramLen ∧ t = s.setXram c (Memory.write c.xram (rel a 0xA000) d)) ∨
        (¬ rel a 0xA000 < c.header.xramLen ∧ t = s))
  | .wrXramMbc1 _ a d => ∃ c r, s.HasMbc1 c r ∧
      ((r.ramEnable = true ∧ mbc1RamOffset r c.header.xramLen a < c.header.xramLen ∧
          t = s.setXram c (Memory.write c.xram (mbc1RamOffset r c.header.xramLen a) d)) ∨
        (¬ (r.ramEnable = true ∧ mbc1RamOffset r c.header.xramLen a < c.header.xramLen) ∧ t = s))
  | .wrXramMbc3Ram _ a d => ∃ c r, s.HasMbc3 c r ∧ r.window = .ram ∧
      ((mbc3RamOffset r c.header.xramBanks a = none ∧ t = s) ∨
        ∃ off, mbc3RamOffset r c.header.xramBanks a = some off ∧ off < c.header.xramLen ∧
          t = s.setXram c (Memory.write c.xram off d))
  | .wrWram0 _ a d => rel a 0xC000 < wramLen s.cgb ∧
      t = { s with wram := Memory.write s.wram (rel a 0xC000) d }
  | .wrWramX _ a d => wramXOffset s.cgb s.svbk a < wramLen s.cgb ∧
      t = { s with wram := Memory.write s.wram (wramXOffset s.cgb s.svbk a) d }
  | .wrHram _ a d => rel a 0xFF80 < hramLen ∧
      t = { s with hram := Memory.write s.hram (rel a 0xFF80) d }
  | .wrSvbk _ d => t = if s.cgb then { s with svbk := svbkWrite s.svbk d } else s
  | _ => t = s

theorem wramStore_next {off : Nat} {d act : Byte} {s t : State} (h : wramStore off d s = .next (t, act)) :
    off < wramLen s.cgb ∧ t = { s with wram := Memory.write s.wram off d } := by
  simp only [wramStore, andThen_next, writeArray_next] at h
  obtain ⟨m, ⟨ho, rfl⟩, e⟩ := h
  cases e
  exact ⟨ho, rfl⟩

theorem droppedWrite_next {s t : State} {act : Byte} (h : droppedWrite s = .next (t, act)) : t = s := by
  cases h
  rfl

/-- A write that answers ran the pre-step, had its effect, and then returned a byte past the observer. -/
theorem exec_write_next {i : Instr} {s t : State} (hi : i.isWrite = true) (h : exec i s = .next t) :
    s.clockOk i.updateRtc = true ∧
      ∃ s2 act, WriteEffect i (s.prestepped i.updateRtc) s2 ∧ t = s2.finishWrite i.addr i.data act := by
  cases i with
  | wrRomNocart u a d =>
    obtain ⟨hc, s2, act, e, rfl⟩ := busWrite_next.1 h
    exact ⟨hc, s2, act, droppedWrite_next (withNoCart_next.1 e).2, rfl⟩
  | wrRomBasic u a d =>
    obtain ⟨hc, s2, act, e, rfl⟩ := busWrite_next.1 h
    obtain ⟨c, -, -, e⟩ := withBasic_next.1 e
    exact ⟨hc, s2, act, droppedWrite_next e, rfl⟩
  | wrRamenMbc1 u a d =>
    obtain ⟨hc, s2, act, e, rfl⟩ := busWrite_next.1 h
    obtain ⟨c, r, hr, e, -⟩ := mbc1Command_next.1 e
    exact ⟨hc, s2, act, ⟨c, r, hr, e⟩, rfl⟩
  | wrRombMbc1 u a d =>
    obtain ⟨hc, s2, act, e, rfl⟩ := busWrite_next.1 h
    obtain ⟨c, r, hr, e, -⟩ := mbc1Command_next.1 e
    exact ⟨hc, s2, act, ⟨c, r, hr, e⟩, rfl⟩
  | wrRambMbc1 u a d =>
    obtain ⟨hc, s2, act, e, rfl⟩ := busWrite_next.1 h
    obtain ⟨c, r, hr, e, -⟩ := mbc1Command_next.1 e
    exact ⟨hc, s2, act, ⟨c, r, hr, e⟩, rfl⟩
  | wrModeMbc1 u a d =>
    obtain ⟨hc, s2, act, e, rfl⟩ := busWrite_next.1 h
    obtain ⟨c, r, hr, e, -⟩ := mbc1Command_next.1 e
    exact ⟨hc, s2, act, ⟨c, r, hr, e⟩, rfl⟩
  | wrRamenMbc3 u a d =>
    obtain ⟨hc, s2, act, e, rfl⟩ := busWrite_next.1 h
    obtain ⟨c, r, hr, e, -⟩ := mbc3Command_next.1 e
    exact ⟨hc, s2, act, ⟨c, r, hr, e⟩, rfl⟩
  | wrRombMbc3 u a d =>
    obtain ⟨hc, s2, act, e, rfl⟩ := busWrite_next.1 h
    obtain ⟨c, r, hr, e, -⟩ := mbc3Command_next.1 e
    exact ⟨hc, s2, act, ⟨c, r, hr, e⟩, rfl⟩
  | wrSelMbc3 u a d =>
    obtain ⟨hc, s2, act, e, rfl⟩ := busWrite_next.1 h
    obtain ⟨c, r, hr, e, -⟩ := mbc3Command_next.1 e
    exact ⟨hc, s2, act, ⟨c, r, hr, e⟩, rfl⟩
  | wrLatch0Mbc3 u a =>
    obtain ⟨hc, s2, act, e, rfl⟩ := busWrite_next.1 h
    obtain ⟨c, r, hr, e, -⟩ := mbc3Command_next.1 e
    exact ⟨hc, s2, act, ⟨c, r, hr, e⟩, rfl⟩
  | wrLatch1Mbc3 u a =>
    obtain ⟨hc, s2, act, e, rfl⟩ := busWrite_next.1 h
    obtain ⟨c, r, hr, e, -⟩ := mbc3Command_next.1 e
    exact ⟨hc, s2, act, ⟨c, r, hr, e⟩, rfl⟩
  | wrLatchXMbc3 u a d =>
    obtain ⟨hc, s2, act, e, rfl⟩ := busWrite_next.1 h
    obtain ⟨c, r, hr, e, -⟩ := mbc3Command_next.1 e
    exact ⟨hc, s2, act, ⟨c, r, hr, e⟩, rfl⟩
  | wrXramNocart u a d =>
    obtain ⟨hc, s2, act, e, rfl⟩ := busWrite_next.1 h
    exact ⟨hc, s2, act, droppedWrite_next (withNoCart_next.1 e).2, rfl⟩
  | wrXramBasic u a d =>
    obtain ⟨hc, s2, act, e, rfl⟩ := busWrite_next.1 h
    obtain ⟨c, hcart, hb, e⟩ := withBasic_next.1 e
    refine ⟨hc, s2, act, ⟨c, hcart, hb, ?_⟩, rfl⟩
    split at e
    · cases e
      exact Or.inl ⟨by assumption, rfl⟩
    · exact Or.inr ⟨by assumption, droppedWrite_next e⟩
  | wrXramMbc1 u a d =>
    obtain ⟨hc, s2, act, e, rfl⟩ := busWrite_next.1 h
    obtain ⟨c, r, hr, e⟩ := withMbc1_next.1 e
    refine ⟨hc, s2, act, ⟨c, r, hr, ?_⟩, rfl⟩
    split at e
    · rename_i hg
      cases e
      exact Or.inl ⟨hg.1, hg.2, rfl⟩
    · exact Or.inr ⟨by assumption, droppedWrite_next e⟩
  | wrXramMbc3Off u a d =>
    obtain ⟨hc, s2, act, e, rfl⟩ := busWrite_next.1 h
    obtain ⟨c, r, -, -, e⟩ := withWindow_next.1 e
    exact ⟨hc, s2, act, droppedWrite_next e, rfl⟩
  | wrXramMbc3Ram u a d =>
    obtain ⟨hc, s2, act, e, rfl⟩ := busWrite_next.1 h
    obtain ⟨c, r, hr, hw, e⟩ := withWindow_next.1 e
    refine ⟨hc, s2, act, ⟨c, r, hr, hw, ?_⟩, rfl⟩
    split at e
    · exact Or.inl ⟨by assumption, droppedWrite_next e⟩
    · rename_i off ho
      simp only [andThen_next, writeArray_next] at e
      obtain ⟨m, ⟨hl, rfl⟩, e⟩ := e
      cases e
      exact Or.inr ⟨off, ho, hl, rfl⟩
  | wrRtcSMbc3 u a d =>
    obtain ⟨hc, s2, act, e, rfl⟩ := busWrite_next.1 h
    obtain ⟨c, r, hr, hw, e, -⟩ := rtcWrite_next.1 e
    exact ⟨hc, s2, act, ⟨c, r, hr, hw, e⟩, rfl⟩
  | wrRtcMMbc3 u a d =>
    obtain ⟨hc, s2, act, e, rfl⟩ := busWrite_next.1 h
    obtain ⟨c, r, hr, hw, e, -⟩ := rtcWrite_next.1 e
    exact ⟨hc, s2, act, ⟨c, r, hr, hw, e⟩, rfl⟩
  | wrRtcHMbc3 u a d =>
    obtain ⟨hc, s2, act, e, rfl⟩ := busWrite_next.1 h
    obtain ⟨c, r, hr, hw, e, -⟩ := rtcWrite_next.1 e
    exact ⟨hc, s2, act, ⟨c, r, hr, hw, e⟩, rfl⟩
  | wrRtcDlMbc3 u a d =>
    obtain ⟨hc, s2, act, e, rfl⟩ := busWrite_next.1 h
    obtain ⟨c, r, hr, hw, e, -⟩ := rtcWrite_next.1 e
    exact ⟨hc, s2, act, ⟨c, r, hr, hw, e⟩, rfl⟩
  | wrRtcDhMbc3 u a d =>
    obtain ⟨hc, s2, act, e, rfl⟩ := busWrite_next.1 h
    obtain ⟨c, r, hr, hw, e, -⟩ := rtcWrite_next.1 e
    exact ⟨hc, s2, act, ⟨c, r, hr, hw, e⟩, rfl⟩
  | wrXramMbc3Rsv u a d =>
    obtain ⟨hc, s2, act, e, rfl⟩ := busWrite_next.1 h
    obtain ⟨c, r, -, -, e⟩ := withWindow_next.1 e
    exact ⟨hc, s2, act, droppedWrite_next e, rfl⟩
  | wrWram0 u a d =>
    obtain ⟨hc, s2, act, e, rfl⟩ := busWrite_next.1 h
    exact ⟨hc, s2, act, wramStore_next e, rfl⟩
  | wrWramX u a d =>
    obtain ⟨hc, s2, act, e, rfl⟩ := busWrite_next.1 h
    exact ⟨hc, s2, act, wramStore_next e, rfl⟩
  | wrFfff u d =>
    obtain ⟨hc, s2, act, e, rfl⟩ := busWrite_next.1 h
    exact ⟨hc, s2, act, droppedWrite_next e, rfl⟩
  | wrHram u a d =>
    obtain ⟨hc, s2, act, e, rfl⟩ := busWrite_next.1 h
    simp only [andThen_next, writeArray_next] at e
    obtain ⟨m, ⟨hl, rfl⟩, e⟩ := e
    cases e
    exact ⟨hc, _, _, ⟨hl, rfl⟩, rfl⟩
  | wrSvbk u d =>
    obtain ⟨hc, s2, act, e, rfl⟩ := busWrite_next.1 h
    refine ⟨hc, s2, act, ?_, rfl⟩
    split at e
    · rename_i hg
      cases e
      exact (if_pos hg).symm
    · rename_i hg
      exact (droppedWrite_next e).trans (if_neg hg).symm
  | wrOpen u a d =>
    obtain ⟨hc, s2, act, e, rfl⟩ := busWrite_next.1 h
    exact ⟨hc, s2, act, droppedWrite_next e, rfl⟩
  | _ => simp [Instr.isWrite] at hi

/-- What a write's effect leaves alone: the straps and ports, the ROM, the mode, and every array it does not store to. -/
theorem writeEffect_frame {i : Instr} {s t : State} (hw : WriteEffect i s t) :
    t.readObserver = s.readObserver ∧ t.writeObserver = s.writeObserver ∧ t.hostHz = s.hostHz ∧
      t.executiveActive = s.executiveActive ∧ t.queue = s.queue ∧ t.now = s.now ∧ t.report = s.report ∧
      t.cgb = s.cgb ∧ (storesXram i = false → t.xram = s.xram) ∧ (storesWram i = false → t.wram = s.wram) ∧
      (storesHram i = false → t.hram = s.hram) ∧ (storesSvbk i = false → t.svbk = s.svbk) ∧
      t.cart.map (fun c => (c.header, c.rom)) = s.cart.map (fun c => (c.header, c.rom)) := by
  cases i <;> simp only [WriteEffect] at hw <;> first | (subst hw; simp) | skip
  all_goals first
    | (obtain ⟨c, r, hr, rfl⟩ := hw
       simp [State.mbc1Set, State.mbc3Set, State.cgb, hr.1, State.xram])
    | (obtain ⟨c, r, hr, hh, rfl⟩ := hw
       simp [State.mbc3Set, State.cgb, hr.1, State.xram])
    | (obtain ⟨c, rfl⟩ := hw; simp [storesWram, storesHram, State.cgb, State.xram]; done)
    | (subst hw; split <;> simp [storesSvbk, State.cgb, State.xram])
    | (obtain ⟨c, r, hr, ⟨_, rfl⟩ | ⟨_, rfl⟩⟩ := hw <;>
        simp [storesXram, State.cgb, r, State.setXram])
    | (obtain ⟨c, r, hr, ⟨_, _, rfl⟩ | ⟨_, rfl⟩⟩ := hw <;>
        simp [storesXram, State.cgb, hr.1, State.setXram])
    | (obtain ⟨c, r, hr, _, ⟨_, rfl⟩ | ⟨_, _, _, rfl⟩⟩ := hw <;>
        simp [storesXram, State.cgb, hr.1, State.setXram])

/-- What the pre-step leaves alone of the cartridge and of the ports. -/
theorem prestepped_frame (s : State) (u : Bool) :
    (s.prestepped u).xram = s.xram ∧
      (s.prestepped u).cart.map (fun c => (c.header, c.rom)) = s.cart.map (fun c => (c.header, c.rom)) ∧
      (s.prestepped u).executiveActive = s.executiveActive ∧ (s.prestepped u).report = s.report := by
  rcases prestepped_cases s u with h | ⟨c, r, hc, h⟩
  · simp [h]
  · simp [h, State.xram, hc.1]

end Sys2Proof.Machine
end

