-- ==== Sys2Proof/Laws/Load.lean ====
section
/-! SUPPORT. What a legal cartridge is, conjunct by conjunct, what keeps one legal, what a load, an attach and a restore
do, and how the header region of a finalized ROM is the file's. -/

namespace Sys2Proof.Machine

theorem cart_legal_iff {c : Cart} :
    c.legal = true ↔
      c.headerMatches = true ∧ c.header.valid = true ∧
        (typeLine c.header.cartridgeType).any (fun line => line.variant == c.ctrl.variant) = true ∧
        Memory.fits c.rom c.header.romLen ∧ Memory.fits c.xram c.header.xramLen ∧ c.ctrl.legal = true := by
  simp only [Cart.legal, Bool.and_eq_true, decide_eq_true_eq, and_assoc]

theorem headerMatches_iff {c : Cart} :
    c.headerMatches = true ↔
      parseHeader c.headerImage = c.header ∧ headerChecksum c.headerImage = c.header.headerChecksum := by
  simp only [Cart.headerMatches, Bool.and_eq_true, beq_iff_eq]

@[simp] theorem headerMatches_ctrl (c : Cart) (k : Controller) : { c with ctrl := k }.headerMatches = c.headerMatches := rfl

@[simp] theorem headerMatches_xram (c : Cart) (m : Memory) : { c with xram := m }.headerMatches = c.headerMatches := rfl

/-- A legal cartridge with other legal registers of the same variant is legal. -/
theorem legal_ctrl {c : Cart} {k : Controller} (h : c.legal = true) (hv : k.variant = c.ctrl.variant)
    (hk : k.legal = true) : { c with ctrl := k }.legal = true := by
  obtain ⟨h1, h2, h3, h4, h5, -⟩ := cart_legal_iff.1 h
  exact cart_legal_iff.2 ⟨h1, h2, by simpa only [hv] using h3, h4, h5, hk⟩

/-- A legal cartridge with another external RAM that fits is legal. -/
theorem legal_xram {c : Cart} {m : Memory} (h : c.legal = true) (hm : Memory.fits m c.header.xramLen) :
    { c with xram := m }.legal = true := by
  obtain ⟨h1, h2, h3, h4, -, h6⟩ := cart_legal_iff.1 h
  exact cart_legal_iff.2 ⟨h1, h2, h3, h4, hm, h6⟩

/-- The move `attach`, both ways. -/
theorem attachMove_next {c : Cart} {s t : State} :
    attachMove c s = .next t ↔ c.legal = true ∧ t = { s.attach (some c) with report := none } := by
  unfold attachMove
  by_cases h : c.legal = true
  · simp only [h, if_true, true_and, Host.Outcome.next.injEq, eq_comm]
  · simp only [h, if_false, false_and, reduceCtorEq, Bool.false_eq_true]

/-- The move `load`, both ways: a failed load, a good one with no save, a good one with a legal save. -/
theorem loadMove_next {file : List Byte} {save : Option Save} {now : Nat} {s t : State} :
    loadMove file save now s = .next t ↔
      (∃ e, makeCart file now = .error e ∧ t = { s.attach none with report := some e }) ∨
      ∃ c, makeCart file now = .ok c ∧
        ((save = none ∧ t = { s.attach (some c) with report := none }) ∨
          ∃ sv, save = some sv ∧ sv.legal c.header = true ∧
            t = { s.attach (some (restore c sv)) with report := none }) := by
  unfold loadMove attachLoaded
  cases makeCart file now with
  | error e => simp [@eq_comm _ t]
  | ok c =>
    cases save with
    | none => simp [@eq_comm _ t]
    | some sv => by_cases h : sv.legal c.header = true <;> simp [h, @eq_comm _ t]

@[simp] theorem restore_header (c : Cart) (sv : Save) : (restore c sv).header = c.header := rfl

@[simp] theorem restore_rom (c : Cart) (sv : Save) : (restore c sv).rom = c.rom := rfl

@[simp] theorem restore_xram (c : Cart) (sv : Save) : (restore c sv).xram = Memory.ofBytes 0 sv.xram := rfl

@[simp] theorem restore_ctrl (c : Cart) (sv : Save) : (restore c sv).ctrl = restoreRtc c.ctrl sv.rtc := rfl

@[simp] theorem restoreRtc_none (k : Controller) : restoreRtc k none = k := by cases k <;> rfl

/-! ## The header region of a file -/

@[simp] theorem fileByte_take {file : List Byte} {n i : Nat} (h : i < n) :
    fileByte (file.take n) i = fileByte file i := by
  simp [fileByte, List.getD_eq_getElem?_getD, h]

/-- The header is read from the header region alone. -/
theorem parseHeader_take (file : List Byte) : parseHeader (file.take 0x0150) = parseHeader file := by
  simp [parseHeader, List.drop_take, List.take_take]

/-- So is the checksum. -/
theorem headerChecksum_take (file : List Byte) : headerChecksum (file.take 0x0150) = headerChecksum file := by
  simp [headerChecksum, List.drop_take, List.take_take]

/-- A ROM listed from a file's first `n` bytes holds the file's header region. -/
theorem headerImage_ofBytes {c : Cart} {file : List Byte} {n : Nat} (hn : 0x0150 ≤ n) (hf : 0x0150 ≤ file.length)
    (hc : c.rom = Memory.ofBytes 0 (file.take n)) : c.headerImage = file.take 0x0150 := by
  apply List.ext_getElem
  · simp [Cart.headerImage, hf]
  · intro i h1 h2
    have hi : i < 0x0150 := by simpa [Cart.headerImage] using h1
    simp only [Cart.headerImage, List.getElem_map, List.getElem_range, hc, Memory.read_ofBytes]
    rw [List.getD_eq_getElem?_getD, List.getElem?_take_of_lt (by omega), List.getElem?_eq_getElem (by omega)]
    simp

theorem romLen_ge (h : Header) : 0x8000 ≤ h.romLen := by
  rw [Header.romLen, Nat.shiftLeft_eq]
  exact Nat.le_mul_of_pos_right _ (Nat.two_pow_pos _)

/-- A cartridge that was made passed every check, and is what finalize gives. -/
theorem makeCart_ok {file : List Byte} {now : Nat} {c : Cart} (h : makeCart file now = .ok c) :
    0x0150 ≤ file.length ∧ headerChecksum file = fileByte file 0x014D ∧ (parseHeader file).valid = true ∧
      (parseHeader file).romLen ≤ file.length ∧
      ∃ line, typeLine (parseHeader file).cartridgeType = some line ∧
        c = finalizeCart (parseHeader file) line.variant file now := by
  unfold makeCart at h
  split at h
  · cases h
  · split at h
    · cases h
    · split at h
      · cases h
      · rename_i line hl
        split at h
        · split at h
          · cases h
          · cases h
            exact ⟨by omega, by simp_all, by assumption, by omega, line, hl, rfl⟩
        · cases h

/-- A finalized cartridge's header is its ROM's, with the checksum the load found right. -/
theorem finalizeCart_headerMatches {file : List Byte} {v : Variant} {now : Nat} (hf : 0x0150 ≤ file.length)
    (hs : headerChecksum file = fileByte file 0x014D) :
    (finalizeCart (parseHeader file) v file now).headerMatches = true := by
  have hr := romLen_ge (parseHeader file)
  rw [headerMatches_iff, headerImage_ofBytes (n := (parseHeader file).romLen) (by omega) hf rfl, parseHeader_take,
    headerChecksum_take]
  exact ⟨rfl, hs⟩

end Sys2Proof.Machine
end

