-- ==== Sys2Proof/Laws/PerInstr.lean ====
section
/-! SUPPORT. The per-instruction family EncodedFields: the word of an instruction carries its `updateRtc`, its
direction, its address and its data byte in the fields of spec/30_encoding.md R101. -/

namespace Sys2Proof.Laws.EncodedFields

/-- Every field of the encoding reads back. -/
def Statement (i : Instr) : Prop :=
  (encode i).u = i.updateRtc ∧ (encode i).w = i.isWrite ∧ (encode i).a = i.addr ∧ (encode i).d = i.data

theorem of_pack (i : Instr) : Statement i :=
  ⟨pack_u _ _ _ _, pack_w _ _ _ _, pack_a _ _ _ _, pack_d _ _ _ _⟩

theorem rdRomNocart (u : Bool) (a : Addr) : Statement (.rdRomNocart u a) := of_pack _
theorem rdRomBasic (u : Bool) (a : Addr) : Statement (.rdRomBasic u a) := of_pack _
theorem rdRom0Mbc1 (u : Bool) (a : Addr) : Statement (.rdRom0Mbc1 u a) := of_pack _
theorem rdRomXMbc1 (u : Bool) (a : Addr) : Statement (.rdRomXMbc1 u a) := of_pack _
theorem rdRom0Mbc3 (u : Bool) (a : Addr) : Statement (.rdRom0Mbc3 u a) := of_pack _
theorem rdRomXMbc3 (u : Bool) (a : Addr) : Statement (.rdRomXMbc3 u a) := of_pack _
theorem rdXramNocart (u : Bool) (a : Addr) : Statement (.rdXramNocart u a) := of_pack _
theorem rdXramBasic (u : Bool) (a : Addr) : Statement (.rdXramBasic u a) := of_pack _
theorem rdXramMbc1 (u : Bool) (a : Addr) : Statement (.rdXramMbc1 u a) := of_pack _
theorem rdXramMbc3Off (u : Bool) (a : Addr) : Statement (.rdXramMbc3Off u a) := of_pack _
theorem rdXramMbc3Ram (u : Bool) (a : Addr) : Statement (.rdXramMbc3Ram u a) := of_pack _
theorem rdRtcMbc3 (u : Bool) (a : Addr) : Statement (.rdRtcMbc3 u a) := of_pack _
theorem rdXramMbc3Rsv (u : Bool) (a : Addr) : Statement (.rdXramMbc3Rsv u a) := of_pack _
theorem rdWram0 (u : Bool) (a : Addr) : Statement (.rdWram0 u a) := of_pack _
theorem rdWramX (u : Bool) (a : Addr) : Statement (.rdWramX u a) := of_pack _
theorem rdFfff (u : Bool) : Statement (.rdFfff u) := of_pack _
theorem rdHram (u : Bool) (a : Addr) : Statement (.rdHram u a) := of_pack _
theorem rdSvbk (u : Bool) : Statement (.rdSvbk u) := of_pack _
theorem rdOpen (u : Bool) (a : Addr) : Statement (.rdOpen u a) := of_pack _
theorem wrRomNocart (u : Bool) (a : Addr) (d : Byte) : Statement (.wrRomNocart u a d) := of_pack _
theorem wrRomBasic (u : Bool) (a : Addr) (d : Byte) : Statement (.wrRomBasic u a d) := of_pack _
theorem wrRamenMbc1 (u : Bool) (a : Addr) (d : Byte) : Statement (.wrRamenMbc1 u a d) := of_pack _
theorem wrRombMbc1 (u : Bool) (a : Addr) (d : Byte) : Statement (.wrRombMbc1 u a d) := of_pack _
theorem wrRambMbc1 (u : Bool) (a : Addr) (d : Byte) : Statement (.wrRambMbc1 u a d) := of_pack _
theorem wrModeMbc1 (u : Bool) (a : Addr) (d : Byte) : Statement (.wrModeMbc1 u a d) := of_pack _
theorem wrRamenMbc3 (u : Bool) (a : Addr) (d : Byte) : Statement (.wrRamenMbc3 u a d) := of_pack _
theorem wrRombMbc3 (u : Bool) (a : Addr) (d : Byte) : Statement (.wrRombMbc3 u a d) := of_pack _
theorem wrSelMbc3 (u : Bool) (a : Addr) (d : Byte) : Statement (.wrSelMbc3 u a d) := of_pack _
theorem wrLatch0Mbc3 (u : Bool) (a : Addr) : Statement (.wrLatch0Mbc3 u a) := of_pack _
theorem wrLatch1Mbc3 (u : Bool) (a : Addr) : Statement (.wrLatch1Mbc3 u a) := of_pack _
theorem wrLatchXMbc3 (u : Bool) (a : Addr) (d : Byte) : Statement (.wrLatchXMbc3 u a d) := of_pack _
theorem wrXramNocart (u : Bool) (a : Addr) (d : Byte) : Statement (.wrXramNocart u a d) := of_pack _
theorem wrXramBasic (u : Bool) (a : Addr) (d : Byte) : Statement (.wrXramBasic u a d) := of_pack _
theorem wrXramMbc1 (u : Bool) (a : Addr) (d : Byte) : Statement (.wrXramMbc1 u a d) := of_pack _
theorem wrXramMbc3Off (u : Bool) (a : Addr) (d : Byte) : Statement (.wrXramMbc3Off u a d) := of_pack _
theorem wrXramMbc3Ram (u : Bool) (a : Addr) (d : Byte) : Statement (.wrXramMbc3Ram u a d) := of_pack _
theorem wrRtcSMbc3 (u : Bool) (a : Addr) (d : Byte) : Statement (.wrRtcSMbc3 u a d) := of_pack _
theorem wrRtcMMbc3 (u : Bool) (a : Addr) (d : Byte) : Statement (.wrRtcMMbc3 u a d) := of_pack _
theorem wrRtcHMbc3 (u : Bool) (a : Addr) (d : Byte) : Statement (.wrRtcHMbc3 u a d) := of_pack _
theorem wrRtcDlMbc3 (u : Bool) (a : Addr) (d : Byte) : Statement (.wrRtcDlMbc3 u a d) := of_pack _
theorem wrRtcDhMbc3 (u : Bool) (a : Addr) (d : Byte) : Statement (.wrRtcDhMbc3 u a d) := of_pack _
theorem wrXramMbc3Rsv (u : Bool) (a : Addr) (d : Byte) : Statement (.wrXramMbc3Rsv u a d) := of_pack _
theorem wrWram0 (u : Bool) (a : Addr) (d : Byte) : Statement (.wrWram0 u a d) := of_pack _
theorem wrWramX (u : Bool) (a : Addr) (d : Byte) : Statement (.wrWramX u a d) := of_pack _
theorem wrFfff (u : Bool) (d : Byte) : Statement (.wrFfff u d) := of_pack _
theorem wrHram (u : Bool) (a : Addr) (d : Byte) : Statement (.wrHram u a d) := of_pack _
theorem wrSvbk (u : Bool) (d : Byte) : Statement (.wrSvbk u d) := of_pack _
theorem wrOpen (u : Bool) (a : Addr) (d : Byte) : Statement (.wrOpen u a d) := of_pack _

end Sys2Proof.Laws.EncodedFields
end

