-- ==== Sys2Proof/Tests/Slice0.lean ====
section
/-! SUPPORT. Small tests. Expected values are the spec's own (spec/95_test_vectors.md, or the example a rule gives);
the comment before a test names the place. `witness_<Obligation>` shows that the hypotheses of an obligation can be
met, clause by clause. -/

namespace Sys2Proof.Tests

open Sys2Proof.Machine

/-! ## Fixtures -/

/-- The header of a file whose header region is zero but for these bytes: "A region of 25 zero bytes gives" 0xE7
(spec/60_exceptions.md R277), and each byte of it takes itself off. The CGB flag is also the title's last byte. -/
def header (cgb type romSize ramSize : Byte) : Header where
  title := trimTitle (List.replicate 15 0x00#8 ++ [cgb])
  cgbFlag := cgb
  cartridgeType := type
  romSize := romSize
  ramSize := ramSize
  headerChecksum := 0xE7#8 - cgb - type - romSize - ramSize

/-- A ROM with that header and the cells given. -/
def romOf (h : Header) (cells : List Host.Cell) : Memory :=
  ([(0x143, h.cgbFlag), (0x147, h.cartridgeType), (0x148, h.romSize), (0x149, h.ramSize),
    (0x14D, h.headerChecksum)] ++ cells).foldl (fun m (c : Host.Cell) => Memory.write m c.1 c.2) []

/-- The empty context with one host tick to the second. -/
def empty : State := { State.reset with hostHz := 1 }

/-- The context with this cartridge attached. -/
def holding (c : Cart) : State := { empty with cart := some c }

/-- A Basic cartridge with 8 KiB of RAM. -/
def basic8 : Cart :=
  ⟨header 0x00#8 0x01#8 0#8 2#8, romOf (header 0x00#8 0x01#8 0#8 2#8) [(0x100, 0x01#8), (0x7FFF, 0xC1#8)], [], .basic⟩

/-- A Basic cartridge without RAM. -/
def basic0 : Cart :=
  ⟨header 0x00#8 0x00#8 0#8 0#8, romOf (header 0x00#8 0x00#8 0#8 0#8) [(0x100, 0x01#8)], [], .basic⟩

/-- A 2 MiB MBC1 cartridge with 32 KiB of RAM, CGB-compatible; each listed byte is the bank number it stands in. -/
def mbc1With (r : Mbc1) : Cart :=
  ⟨header 0x80#8 0x1B#8 6#8 3#8, romOf (header 0x80#8 0x1B#8 6#8 3#8) [(0x80000, 0x20#8), (0x94000, 0x25#8)],
    [(0x0000, 0x42#8)], .mbc1 r⟩

/-- A 2 MiB MBC3 cartridge with 32 KiB of RAM, for DMG. -/
def mbc3With (r : Mbc3) : Cart :=
  ⟨header 0x00#8 0x10#8 6#8 3#8, romOf (header 0x00#8 0x10#8 6#8 3#8) [(0x100, 0x01#8), (0x114000, 0x45#8)],
    [(0x4010, 0x5A#8)], .mbc3 r⟩

/-- Open gate, ROM bank 5, upper bits 1, simple mode. -/
def regs1 : Mbc1 := ⟨true, 5#5, 1#2, 0#1⟩

/-- 12:34:56 on day 0. -/
def noon : Rtc := ⟨56#8, 34#8, 12#8, 0#8, 0x00#8⟩

/-- Gate, selector and live registers as given; nothing latched, idle, last advanced at 0. -/
def regs3 (gate : Bool) (sel : BitVec 4) (live : Rtc) : Mbc3 := ⟨gate, 0x45#7, sel, live, Rtc.zero, 0#1, 0⟩

/-- The MBC1 context most tests use. -/
def s1 : State := holding (mbc1With regs1)

/-- The MBC3 context with gate and selector as given, at 12:34:56. -/
def s3 (gate : Bool) (sel : BitVec 4) : State := holding (mbc3With (regs3 gate sel noon))

/-- The state after, if the transaction answers. -/
def after (i : Instr) (s : State) : Option State :=
  match exec i s with
  | .next t => some t
  | _ => none

/-- The byte the transaction returns. -/
def returns (i : Instr) (s : State) : Option Byte := (after i s).bind (·.returned)

/-- The MBC1 registers after. -/
def regs1After (i : Instr) (s : State) : Option Mbc1 :=
  match (after i s).bind (·.cart) with
  | some ⟨_, _, _, .mbc1 r⟩ => some r
  | _ => none

/-- The MBC3 registers after. -/
def regs3After (i : Instr) (s : State) : Option Mbc3 := (after i s).bind (·.mbc3?)

/-- Byte `k` of external RAM after. -/
def xramAfter (k : Nat) (i : Instr) (s : State) : Option Byte := (after i s).map fun t => Memory.read t.xram k

/-- Byte `k` of work RAM after. -/
def wramAfter (k : Nat) (i : Instr) (s : State) : Option Byte := (after i s).map fun t => Memory.read t.wram k

/-! ## Well-formedness: one ill-formed term for each check -/

theorem test_wf_rom_windows :
    (Instr.rdRomNocart true 0x8000#16).wf = false ∧ (Instr.rdRomBasic true 0x8000#16).wf = false ∧
    (Instr.rdRom0Mbc1 true 0x4000#16).wf = false ∧ (Instr.rdRomXMbc1 true 0x3FFF#16).wf = false ∧
    (Instr.rdRomXMbc1 true 0x8000#16).wf = false ∧ (Instr.rdRom0Mbc3 true 0x4000#16).wf = false ∧
    (Instr.rdRomXMbc3 true 0x3FFF#16).wf = false ∧ (Instr.wrRomNocart true 0x8000#16 0#8).wf = false ∧
    (Instr.wrRomBasic true 0xA000#16 0#8).wf = false := by decide

theorem test_wf_xram_reads :
    (Instr.rdXramNocart true 0x9FFF#16).wf = false ∧ (Instr.rdXramBasic true 0xC000#16).wf = false ∧
    (Instr.rdXramMbc1 true 0x9FFF#16).wf = false ∧ (Instr.rdXramMbc3Off true 0xC000#16).wf = false ∧
    (Instr.rdXramMbc3Ram true 0x9FFF#16).wf = false ∧ (Instr.rdRtcMbc3 true 0xC000#16).wf = false ∧
    (Instr.rdXramMbc3Rsv true 0x9FFF#16).wf = false := by decide

theorem test_wf_xram_writes :
    (Instr.wrXramNocart true 0x9FFF#16 0#8).wf = false ∧ (Instr.wrXramBasic true 0xC000#16 0#8).wf = false ∧
    (Instr.wrXramMbc1 true 0x9FFF#16 0#8).wf = false ∧ (Instr.wrXramMbc3Off true 0xC000#16 0#8).wf = false ∧
    (Instr.wrXramMbc3Ram true 0x9FFF#16 0#8).wf = false ∧ (Instr.wrRtcSMbc3 true 0xC000#16 0#8).wf = false ∧
    (Instr.wrRtcMMbc3 true 0x9FFF#16 0#8).wf = false ∧ (Instr.wrRtcHMbc3 true 0xC000#16 0#8).wf = false ∧
    (Instr.wrRtcDlMbc3 true 0x9FFF#16 0#8).wf = false ∧ (Instr.wrRtcDhMbc3 true 0xC000#16 0#8).wf = false ∧
    (Instr.wrXramMbc3Rsv true 0x9FFF#16 0#8).wf = false := by decide

theorem test_wf_commands :
    (Instr.wrRamenMbc1 true 0x2000#16 0#8).wf = false ∧ (Instr.wrRombMbc1 true 0x4000#16 0#8).wf = false ∧
    (Instr.wrRambMbc1 true 0x3FFF#16 0#8).wf = false ∧ (Instr.wrModeMbc1 true 0x8000#16 0#8).wf = false ∧
    (Instr.wrRamenMbc3 true 0x2000#16 0#8).wf = false ∧ (Instr.wrRombMbc3 true 0x1FFF#16 0#8).wf = false ∧
    (Instr.wrSelMbc3 true 0x6000#16 0#8).wf = false ∧ (Instr.wrLatch0Mbc3 true 0x5FFF#16).wf = false ∧
    (Instr.wrLatch1Mbc3 true 0x8000#16).wf = false ∧ (Instr.wrLatchXMbc3 true 0x5FFF#16 2#8).wf = false ∧
    (Instr.wrLatchXMbc3 true 0x6000#16 0#8).wf = false ∧ (Instr.wrLatchXMbc3 true 0x6000#16 1#8).wf = false := by
  decide

theorem test_wf_memory_and_open :
    (Instr.rdWram0 true 0xD000#16).wf = false ∧ (Instr.rdWramX true 0xCFFF#16).wf = false ∧
    (Instr.rdHram true 0xFFFF#16).wf = false ∧ (Instr.wrWram0 true 0xBFFF#16 0#8).wf = false ∧
    (Instr.wrWramX true 0xE000#16 0#8).wf = false ∧ (Instr.wrHram true 0xFF7F#16 0#8).wf = false ∧
    (Instr.rdOpen true 0xFF70#16).wf = false ∧ (Instr.rdOpen true 0xFFFF#16).wf = false ∧
    (Instr.rdOpen true 0xC000#16).wf = false ∧ (Instr.wrOpen true 0xFF80#16 0#8).wf = false := by decide

/-! ## Decoding: one word for every kind, written out as `U`, `W`, `A`, `D` (spec/30_encoding.md R101, R122) -/

theorem test_decode_no_cartridge :
    decode .noCart 0b1_0_0000000100000000_00000000#26 = .rdRomNocart true 0x0100#16 ∧
    decode .noCart 0b1_1_0010000000000000_00000101#26 = .wrRomNocart true 0x2000#16 0x05#8 ∧
    decode .noCart 0b0_0_1010000000000000_00000000#26 = .rdXramNocart false 0xA000#16 ∧
    decode .noCart 0b1_1_1011111111111111_00000001#26 = .wrXramNocart true 0xBFFF#16 0x01#8 := by decide

theorem test_decode_basic :
    decode .basic 0b1_0_0111111111111111_00000000#26 = .rdRomBasic true 0x7FFF#16 ∧
    decode .basic 0b1_1_0010000000000000_11111111#26 = .wrRomBasic true 0x2000#16 0xFF#8 ∧
    decode .basic 0b1_0_1010000000000000_00000000#26 = .rdXramBasic true 0xA000#16 ∧
    decode .basic 0b1_1_1010000000000000_00010010#26 = .wrXramBasic true 0xA000#16 0x12#8 := by decide

theorem test_decode_mbc1_commands :
    decode .mbc1 0b1_1_0001111111111111_00001010#26 = .wrRamenMbc1 true 0x1FFF#16 0x0A#8 ∧
    decode .mbc1 0b1_1_0010000000000000_00000101#26 = .wrRombMbc1 true 0x2000#16 0x05#8 ∧
    decode .mbc1 0b1_1_0100000000000000_00000001#26 = .wrRambMbc1 true 0x4000#16 0x01#8 ∧
    decode .mbc1 0b1_1_0110000000000000_00000001#26 = .wrModeMbc1 true 0x6000#16 0x01#8 := by decide

theorem test_decode_mbc1_accesses :
    decode .mbc1 0b1_0_0011111111111111_00000000#26 = .rdRom0Mbc1 true 0x3FFF#16 ∧
    decode .mbc1 0b1_0_0100000000000000_00000000#26 = .rdRomXMbc1 true 0x4000#16 ∧
    decode .mbc1 0b1_0_1011111111111111_00000000#26 = .rdXramMbc1 true 0xBFFF#16 ∧
    decode .mbc1 0b0_1_1010000000000000_01000010#26 = .wrXramMbc1 false 0xA000#16 0x42#8 := by decide

theorem test_decode_mbc3_commands :
    decode (.mbc3 false 0#4) 0b1_1_0000000000000000_00001010#26 = .wrRamenMbc3 true 0x0000#16 0x0A#8 ∧
    decode (.mbc3 false 0#4) 0b1_1_0011111111111111_01000101#26 = .wrRombMbc3 true 0x3FFF#16 0x45#8 ∧
    decode (.mbc3 true 8#4) 0b1_1_0101111111111111_00001000#26 = .wrSelMbc3 true 0x5FFF#16 0x08#8 ∧
    decode (.mbc3 false 0#4) 0b1_1_0110000000000000_00000000#26 = .wrLatch0Mbc3 true 0x6000#16 ∧
    decode (.mbc3 true 8#4) 0b1_1_0111111111111111_00000001#26 = .wrLatch1Mbc3 true 0x7FFF#16 ∧
    decode (.mbc3 true 8#4) 0b1_1_0110000000000000_10000001#26 = .wrLatchXMbc3 true 0x6000#16 0x81#8 := by decide

theorem test_decode_mbc3_reads :
    decode (.mbc3 true 3#4) 0b1_0_0011111111111111_00000000#26 = .rdRom0Mbc3 true 0x3FFF#16 ∧
    decode (.mbc3 true 3#4) 0b1_0_0100000000000000_00000000#26 = .rdRomXMbc3 true 0x4000#16 ∧
    decode (.mbc3 false 8#4) 0b1_0_1010000000000000_00000000#26 = .rdXramMbc3Off true 0xA000#16 ∧
    decode (.mbc3 true 3#4) 0b1_0_1010000000010000_00000000#26 = .rdXramMbc3Ram true 0xA010#16 ∧
    decode (.mbc3 true 12#4) 0b0_0_1010000000000000_00000000#26 = .rdRtcMbc3 false 0xA000#16 ∧
    decode (.mbc3 true 7#4) 0b1_0_1010000000000000_00000000#26 = .rdXramMbc3Rsv true 0xA000#16 := by decide

theorem test_decode_mbc3_writes :
    decode (.mbc3 false 0#4) 0b1_1_1010000000000000_00011110#26 = .wrXramMbc3Off true 0xA000#16 30#8 ∧
    decode (.mbc3 true 0#4) 0b1_1_1010000000000000_01110111#26 = .wrXramMbc3Ram true 0xA000#16 0x77#8 ∧
    decode (.mbc3 true 8#4) 0b1_1_1010000000000000_00011110#26 = .wrRtcSMbc3 true 0xA000#16 30#8 ∧
    decode (.mbc3 true 9#4) 0b1_1_1010000000000000_00111011#26 = .wrRtcMMbc3 true 0xA000#16 59#8 ∧
    decode (.mbc3 true 10#4) 0b1_1_1010000000000000_00010111#26 = .wrRtcHMbc3 true 0xA000#16 23#8 ∧
    decode (.mbc3 true 11#4) 0b1_1_1010000000000000_11111111#26 = .wrRtcDlMbc3 true 0xA000#16 255#8 ∧
    decode (.mbc3 true 12#4) 0b1_1_1011111111111111_01000000#26 = .wrRtcDhMbc3 true 0xBFFF#16 0x40#8 ∧
    decode (.mbc3 true 13#4) 0b1_1_1010000000000000_00010010#26 = .wrXramMbc3Rsv true 0xA000#16 0x12#8 := by decide

theorem test_decode_work_ram :
    decode .noCart 0b1_0_1100000000000000_00000000#26 = .rdWram0 true 0xC000#16 ∧
    decode .basic 0b0_1_1100000000000000_01011010#26 = .wrWram0 false 0xC000#16 0x5A#8 ∧
    decode .mbc1 0b1_0_1101000000000000_00000000#26 = .rdWramX true 0xD000#16 ∧
    decode (.mbc3 true 8#4) 0b1_1_1101111111111111_00000001#26 = .wrWramX true 0xDFFF#16 0x01#8 := by decide

theorem test_decode_high_ram_svbk :
    decode .noCart 0b1_0_1111111111111110_00000000#26 = .rdHram true 0xFFFE#16 ∧
    decode .noCart 0b1_1_1111111110000000_10101011#26 = .wrHram true 0xFF80#16 0xAB#8 ∧
    decode .mbc1 0b1_0_1111111101110000_00000000#26 = .rdSvbk true ∧
    decode .mbc1 0b1_1_1111111101110000_00000011#26 = .wrSvbk true 0x03#8 := by decide

theorem test_decode_open_bus :
    decode .noCart 0b1_0_1000000000000000_00000000#26 = .rdOpen true 0x8000#16 ∧
    decode .noCart 0b1_1_1111111101111111_00010001#26 = .wrOpen true 0xFF7F#16 0x11#8 ∧
    decode .noCart 0b1_0_1111111111111111_00000000#26 = .rdFfff true ∧
    decode .noCart 0b1_1_1111111111111111_00011111#26 = .wrFfff true 0x1F#8 := by decide

/-- spec/30_encoding.md R101: 26 bits; anything above is refused by name. -/
theorem test_decode_refuses_27_bits :
    decodeNat .noCart 0x4000000 = .error .notTwentySixBits ∧ decodeTableWord 32 0x4000000 = none ∧
    decodeTableWord 32 0x2FFFF00 = some (.rdFfff true) := by decide

/-- spec/30_encoding.md R101: "a decoder ignores" the data field of a read. -/
theorem test_decode_read_ignores_data : decode .noCart 0x240005A#26 = .rdRomNocart true 0x4000#16 := by decide

/-- spec/30_encoding.md R101: the words of spec/95_test_vectors.md 2.12, the other way round. -/
theorem test_encode_spec_words :
    encode (.wrRombMbc1 true 0x2000#16 0x05#8) = 0x3200005#26 ∧ encode (.rdRomXMbc1 true 0x4000#16) = 0x2400000#26 ∧
    encode (.rdXramMbc3Ram false 0xA000#16) = 0x0A00000#26 ∧ encode (.wrSvbk true 0x03#8) = 0x3FF7003#26 ∧
    encode (.wrWram0 false 0xC000#16 0x5A#8) = 0x1C0005A#26 ∧ encode (.rdFfff true) = 0x2FFFF00#26 ∧
    encode (.wrLatch1Mbc3 true 0x6000#16) = 0x3600001#26 := by decide

/-- The window selectors at their boundaries (spec/42_mbc3.md R178). -/
theorem test_windows :
    mbc3Window false 8#4 = .off ∧ mbc3Window true 3#4 = .ram ∧ mbc3Window true 4#4 = .rsv ∧
    mbc3Window true 7#4 = .rsv ∧ mbc3Window true 8#4 = .rtc .s ∧ mbc3Window true 12#4 = .rtc .dh ∧
    mbc3Window true 13#4 = .rsv ∧ mbc3Window true 15#4 = .rsv := by decide

/-! ## One step: no cartridge, Basic -/

/-- spec/95_test_vectors.md 2.1. -/
theorem test_no_cartridge :
    returns (.rdRomNocart true 0x7FFF#16) empty = some 0xFF#8 ∧
    returns (.wrRomNocart true 0x2000#16 0x01#8) empty = some 0xFF#8 ∧
    returns (.rdXramNocart true 0xA000#16) empty = some 0xFF#8 ∧
    returns (.wrXramNocart true 0xA000#16 0x01#8) empty = some 0xFF#8 := by decide

/-- spec/40_cartridge_common_basic.md R137, spec/95_test_vectors.md 2.1. -/
theorem test_basic_rom :
    returns (.rdRomBasic true 0x7FFF#16) (holding basic8) = some 0xC1#8 ∧
    returns (.wrRomBasic true 0x2000#16 0xFF#8) (holding basic8) = some 0xFF#8 := by decide

/-- spec/40_cartridge_common_basic.md R139, R141, spec/95_test_vectors.md 2.1. -/
theorem test_basic_xram :
    returns (.rdXramBasic true 0xBFFF#16) (holding basic8) = some 0x00#8 ∧
    returns (.wrXramBasic true 0xBFFF#16 0x34#8) (holding basic8) = some 0x34#8 ∧
    xramAfter 0x1FFF (.wrXramBasic true 0xBFFF#16 0x34#8) (holding basic8) = some 0x34#8 ∧
    returns (.rdXramBasic true 0xA000#16) (holding basic0) = some 0xFF#8 ∧
    returns (.wrXramBasic true 0xA000#16 0x12#8) (holding basic0) = some 0xFF#8 := by decide

/-! ## One step: MBC1 -/

/-- spec/41_mbc1.md R150 to R153, the corner cases. -/
theorem test_mbc1_commands :
    regs1After (.wrRamenMbc1 true 0x0000#16 0x1A#8) s1 = some regs1 ∧
    regs1After (.wrRamenMbc1 true 0x1FFF#16 0xA0#8) s1 = some { regs1 with ramEnable := false } ∧
    regs1After (.wrRombMbc1 true 0x2000#16 0x20#8) s1 = some { regs1 with romBank := 1#5 } ∧
    regs1After (.wrRombMbc1 true 0x2000#16 0xFF#8) s1 = some { regs1 with romBank := 0x1F#5 } ∧
    regs1After (.wrRambMbc1 true 0x4000#16 0xFF#8) s1 = some { regs1 with ramBank := 3#2 } ∧
    regs1After (.wrModeMbc1 true 0x6000#16 0x03#8) s1 = some { regs1 with mode := 1#1 } := by decide

/-- spec/95_test_vectors.md 1.2, scenario 2: the byte at ROM offset 0x94000. -/
theorem test_mbc1_romx : returns (.rdRomXMbc1 true 0x4000#16) s1 = some 0x25#8 := by decide

/-- spec/41_mbc1.md R158: 2 MiB, mode 1, ramBank 1: `RD 0x0000` is `ROM[0x80000]`; mode 0: bank 0. -/
theorem test_mbc1_rom0 :
    returns (.rdRom0Mbc1 true 0x0000#16) (holding (mbc1With { regs1 with mode := 1#1 })) = some 0x20#8 ∧
    returns (.rdRom0Mbc1 true 0x0000#16) s1 = some 0x00#8 := by decide

/-- spec/95_test_vectors.md 2.2: 64 banks, ramBank 3 and mode 1 show bank 0x20; 16 banks, romBank 0x10 shows bank 0. -/
theorem test_mbc1_bank_masks :
    mbc1Bank0 ⟨false, 0x12#5, 3#2, 1#1⟩ 64 = 0x20 ∧ mbc1Bank0 ⟨false, 0x12#5, 2#2, 1#1⟩ 64 = 0x00 ∧
    mbc1BankX ⟨false, 0x10#5, 0#2, 0#1⟩ 16 = 0x00 ∧ mbc1BankX ⟨false, 0x12#5, 3#2, 0#1⟩ 128 = 0x72 := by decide

/-- spec/41_mbc1.md R160 to R163, spec/95_test_vectors.md 2.3. -/
theorem test_mbc1_xram :
    returns (.rdXramMbc1 true 0xA000#16) s1 = some 0x42#8 ∧
    returns (.rdXramMbc1 true 0xA000#16) (holding (mbc1With { regs1 with ramEnable := false })) = some 0xFF#8 ∧
    returns (.wrXramMbc1 true 0xA000#16 0x55#8) (holding (mbc1With { regs1 with ramEnable := false })) = some 0xFF#8 ∧
    xramAfter 0 (.wrXramMbc1 true 0xA000#16 0x55#8) (holding (mbc1With { regs1 with ramEnable := false })) =
      some 0x42#8 ∧
    xramAfter 0x3FFF (.wrXramMbc1 true 0xBFFF#16 0x21#8) (holding (mbc1With { regs1 with mode := 1#1 })) =
      some 0x21#8 := by decide

/-! ## One step: MBC3 -/

/-- spec/95_test_vectors.md 2.4, 2.5. -/
theorem test_mbc3_commands :
    regs3After (.wrRamenMbc3 false 0x0000#16 0xFA#8) (s3 false 0#4) = some (regs3 true 0#4 noon) ∧
    regs3After (.wrRombMbc3 false 0x2000#16 0x80#8) (s3 true 0#4) =
      some { regs3 true 0#4 noon with romBank := 1#7 } ∧
    regs3After (.wrRombMbc3 false 0x2000#16 0x20#8) (s3 true 0#4) =
      some { regs3 true 0#4 noon with romBank := 0x20#7 } ∧
    regs3After (.wrSelMbc3 false 0x4000#16 0xF3#8) (s3 true 0#4) = some (regs3 true 3#4 noon) := by decide

/-- spec/95_test_vectors.md 2.6: from the armed state. -/
theorem test_mbc3_latch :
    regs3After (.wrLatch0Mbc3 false 0x6000#16) (s3 false 0#4) =
      some { regs3 false 0#4 noon with latchState := 1#1 } ∧
    regs3After (.wrLatch1Mbc3 false 0x7FFF#16) (holding (mbc3With { regs3 false 0#4 noon with latchState := 1#1 })) =
      some { regs3 false 0#4 noon with latched := noon } ∧
    regs3After (.wrLatch1Mbc3 false 0x6000#16) (s3 false 0#4) = some (regs3 false 0#4 noon) ∧
    regs3After (.wrLatchXMbc3 false 0x6000#16 0x81#8)
      (holding (mbc3With { regs3 false 0#4 noon with latchState := 1#1 })) = some (regs3 false 0#4 noon) := by decide

/-- spec/42_mbc3.md R176, R177: `ROM[0x0100]`, `ROM[0x114000]`. -/
theorem test_mbc3_rom :
    returns (.rdRom0Mbc3 true 0x0100#16) (s3 false 0#4) = some 0x01#8 ∧
    returns (.rdRomXMbc3 true 0x4000#16) (s3 false 0#4) = some 0x45#8 := by decide

/-- spec/42_mbc3.md R179, R180, R191, R192. -/
theorem test_mbc3_open_window :
    returns (.rdXramMbc3Off true 0xA000#16) (s3 false 8#4) = some 0xFF#8 ∧
    returns (.wrXramMbc3Off true 0xA000#16 30#8) (s3 false 8#4) = some 0xFF#8 ∧
    regs3After (.wrXramMbc3Off false 0xA000#16 30#8) (s3 false 8#4) = some (regs3 false 8#4 noon) ∧
    returns (.rdXramMbc3Rsv true 0xA000#16) (s3 true 5#4) = some 0xFF#8 ∧
    returns (.wrXramMbc3Rsv true 0xA000#16 0x12#8) (s3 true 0xF#4) = some 0xFF#8 := by decide

/-- spec/42_mbc3.md R182, R183: `sel == 2`, 0xA010 is `XRAM[0x4010]`; `sel == 1`, 0xA000 is `XRAM[0x2000]`. -/
theorem test_mbc3_xram :
    returns (.rdXramMbc3Ram true 0xA010#16) (s3 true 2#4) = some 0x5A#8 ∧
    returns (.wrXramMbc3Ram true 0xA000#16 0x77#8) (s3 true 1#4) = some 0x77#8 ∧
    xramAfter 0x2000 (.wrXramMbc3Ram true 0xA000#16 0x77#8) (s3 true 1#4) = some 0x77#8 := by decide

/-- spec/95_test_vectors.md 2.7: with one bank the selector wraps; with none there is no offset. -/
theorem test_mbc3_ram_wrap :
    mbc3RamOffset (regs3 true 3#4 noon) 1 0xA000#16 = some 0 ∧
    mbc3RamOffset (regs3 true 3#4 noon) 4 0xBFFF#16 = some 0x7FFF ∧
    mbc3RamOffset (regs3 true 0#4 noon) 0 0xA000#16 = none := by decide

/-- spec/42_mbc3.md R185: the latched register, not the live one; the whole window is the register. -/
theorem test_mbc3_rtc_read :
    returns (.rdRtcMbc3 false 0xA000#16) (s3 true 8#4) = some 0x00#8 ∧
    returns (.rdRtcMbc3 false 0xBFFF#16)
      (holding (mbc3With { regs3 true 9#4 Rtc.zero with latched := noon })) = some 34#8 := by decide

/-- spec/95_test_vectors.md 2.7: the seconds, minutes and hours of an RTC write. -/
theorem test_mbc3_rtc_write_time :
    returns (.wrRtcSMbc3 false 0xA000#16 0xFF#8) (s3 true 8#4) = some 0x0F#8 ∧
    regs3After (.wrRtcSMbc3 false 0xA000#16 30#8) (s3 true 8#4) = some (regs3 true 8#4 { noon with s := 30#8 }) ∧
    regs3After (.wrRtcMMbc3 false 0xA000#16 0x3C#8) (s3 true 9#4) = some (regs3 true 9#4 { noon with m := 0#8 }) ∧
    regs3After (.wrRtcHMbc3 false 0xA000#16 0xFF#8) (s3 true 10#4) =
      some (regs3 true 10#4 { noon with h := 0x0F#8 }) := by decide

/-- spec/95_test_vectors.md 2.7: the days of an RTC write. -/
theorem test_mbc3_rtc_write_days :
    regs3After (.wrRtcDlMbc3 false 0xA000#16 0xFF#8) (s3 true 11#4) =
      some (regs3 true 11#4 { noon with dl := 0xFF#8 }) ∧
    returns (.wrRtcDhMbc3 false 0xA000#16 0xFF#8) (s3 true 12#4) = some 0xC1#8 ∧
    regs3After (.wrRtcDhMbc3 false 0xA000#16 0x3E#8) (s3 true 12#4) = some (regs3 true 12#4 noon) := by decide

/-! ## The RTC engine (spec/95_test_vectors.md 2.8) -/

/-- 12:34:56 and 10 s; 511 d 23:59:59 and 1 s; 255 d 23:59:59 and 1 s; 100 d and 500 days with the flag set. -/
theorem test_rtc_sums :
    noon.addSeconds 10 = ⟨6#8, 35#8, 12#8, 0#8, 0x00#8⟩ ∧
    (Rtc.mk 59#8 59#8 23#8 255#8 0x01#8).addSeconds 1 = ⟨0#8, 0#8, 0#8, 0#8, 0x80#8⟩ ∧
    (Rtc.mk 59#8 59#8 23#8 255#8 0x00#8).addSeconds 1 = ⟨0#8, 0#8, 0#8, 0#8, 0x01#8⟩ ∧
    (Rtc.mk 58#8 59#8 23#8 255#8 0x01#8).addSeconds 1 = ⟨59#8, 59#8, 23#8, 255#8, 0x01#8⟩ ∧
    Rtc.zero.addSeconds 88473605 = ⟨5#8, 0#8, 0#8, 0#8, 0x80#8⟩ ∧
    (Rtc.mk 3#8 2#8 1#8 100#8 0x80#8).addSeconds 43200000 = ⟨3#8, 2#8, 1#8, 88#8, 0x80#8⟩ := by decide

/-- Fractions at 1000 ticks to the second, and the halted clock. -/
theorem test_rtc_advance :
    (regs3 false 0#4 Rtc.zero).advance 1000 999 = regs3 false 0#4 Rtc.zero ∧
    (regs3 false 0#4 Rtc.zero).advance 1000 10300 =
      { regs3 false 0#4 ⟨10#8, 0#8, 0#8, 0#8, 0#8⟩ with lastUpdateTime := 10000 } ∧
    (regs3 false 0#4 { noon with dh := 0x40#8 }).advance 1 100 =
      { regs3 false 0#4 { noon with dh := 0x40#8 } with lastUpdateTime := 100 } := by decide

/-- spec/95_test_vectors.md 2.11: a work-RAM read at 5 moves the clock; the same with `/d` does not. -/
theorem test_prestep_on_any_address :
    regs3After (.rdWram0 true 0xC000#16) { holding (mbc3With (regs3 false 0#4 Rtc.zero)) with now := 5 } =
      some { regs3 false 0#4 ⟨5#8, 0#8, 0#8, 0#8, 0#8⟩ with lastUpdateTime := 5 } ∧
    regs3After (.rdWram0 false 0xC000#16) { holding (mbc3With (regs3 false 0#4 Rtc.zero)) with now := 9 } =
      some (regs3 false 0#4 Rtc.zero) := by decide

/-! ## Work RAM, high RAM, SVBK, open bus (spec/95_test_vectors.md 2.9, 2.10) -/

/-- Offsets of the switchable bank: CGB with 7, 0 and 1 selected; DMG with anything selected. -/
theorem test_wramx_offsets :
    wramXOffset true 7#8 0xDFFF#16 = 0x7FFF ∧ wramXOffset true 0xF8#8 0xD000#16 = 0x1000 ∧
    wramXOffset true 0xF9#8 0xD000#16 = 0x1000 ∧ wramXOffset false 3#8 0xD000#16 = 0x1000 := by decide

/-- Stores and reads of work RAM. -/
theorem test_wram :
    wramAfter 0x0FFF (.wrWram0 true 0xCFFF#16 0x5A#8) empty = some 0x5A#8 ∧
    returns (.wrWram0 true 0xCFFF#16 0x5A#8) empty = some 0x5A#8 ∧
    wramAfter 0x7FFF (.wrWramX true 0xDFFF#16 0x01#8) { s1 with svbk := 0xFF#8 } = some 0x01#8 ∧
    returns (.rdWram0 true 0xC000#16) { empty with wram := [(0, 0xC0#8)] } = some 0xC0#8 ∧
    returns (.rdWramX true 0xD000#16) { s1 with svbk := 3#8, wram := [(0x3000, 0xB3#8)] } = some 0xB3#8 := by decide

/-- High RAM's ends, and 0xFFFF beyond it. -/
theorem test_hram :
    (after (.wrHram true 0xFFFE#16 0xCD#8) empty).map (·.hram) = some [(126, 0xCD#8)] ∧
    returns (.rdHram true 0xFF80#16) { empty with hram := [(0, 0xAB#8)] } = some 0xAB#8 ∧
    (after (.wrFfff true 0x1F#8) empty).map (·.hram) = some [] ∧
    returns (.wrFfff true 0x1F#8) empty = some 0xFF#8 ∧ returns (.rdFfff true) empty = some 0xFF#8 := by decide

/-- SVBK in CGB mode (0x0B stores 3, reads 0xFB) and in DMG mode. -/
theorem test_svbk :
    returns (.wrSvbk true 0x0B#8) s1 = some 0xFB#8 ∧
    (after (.wrSvbk true 0x0B#8) s1).map (fun t => svbkIndex t.svbk) = some 3#3 ∧
    returns (.rdSvbk true) { s1 with svbk := 0x03#8 } = some 0xFB#8 ∧
    returns (.wrSvbk true 0x03#8) empty = some 0xFF#8 ∧ returns (.rdSvbk true) empty = some 0xFF#8 := by decide

/-- Open addresses; no mirror of work RAM at 0xE000. -/
theorem test_open_bus :
    returns (.rdOpen true 0xE000#16) { empty with wram := [(0, 0x99#8)] } = some 0xFF#8 ∧
    returns (.wrOpen true 0xFF00#16 0x30#8) empty = some 0xFF#8 ∧
    after (.wrOpen true 0xFF00#16 0x30#8) empty = some { empty with returned := some 0xFF#8 } := by decide

/-! ## Observers, the step, the host -/

/-- spec/95_test_vectors.md 2.11: the write observer sees (0xA000, 0x55, 0xFF) on a gate-closed MBC1. -/
theorem test_write_observer :
    ((after (.wrXramMbc1 true 0xA000#16 0x55#8)
      { holding (mbc1With { regs1 with ramEnable := false }) with writeObserver := some 7 }).bind (·.observed)) =
      some (.onWrite 7 0xA000#16 0x55#8 0xFF#8) := by decide

/-- The word placed for the next step is the one that runs, from reset. -/
theorem test_step_runs_placed_word :
    step (State.reset.withFetchWord 26 0x2FFFF00) = exec (.rdFfff true) State.reset := rfl

/-- A queued transaction is decoded, here to an MBC3 RTC read, and run with its own clock sample. -/
theorem test_step_takes_transaction :
    (match step { s3 true 8#4 with queue := [.transaction ⟨0x2A00000#26, [3], 7⟩] } with
      | .next t => some (t.returned, t.queue, t.now)
      | _ => none) = some (some 0x00#8, [], 7) := by decide

/-- spec/43_rtc.md R209: a sample below the timestamp is refused. -/
theorem test_backwards_clock :
    exec (.rdSvbk true) { holding (mbc3With { regs3 false 0#4 noon with lastUpdateTime := 10 }) with now := 9 } =
      .refused .hostClockBackwards := rfl

/-- spec/60_exceptions.md R274: a tick with no active context is a misuse, and with one it does nothing. -/
theorem test_tick :
    hostMove .tick empty = .next { empty with report := some .busMisuse } ∧
    hostMove .tick { empty with executiveActive := true } = .next { empty with executiveActive := true } :=
  ⟨rfl, rfl⟩

/-- spec/10_state.md R22: a zero ROM of type 0x00 has checksum 0xE7 and byte 0x014D zero, so it is not attached, whatever
its header says; with 0xE7 there it is. -/
theorem test_attach_checks_header :
    hostMove (.attach ⟨header 0#8 0#8 0#8 0#8, [], [], .basic⟩) empty = .refused .illegalHostInput ∧
    hostMove (.attach ⟨{ header 0#8 0#8 0#8 0#8 with headerChecksum := 0#8 }, [], [], .basic⟩) empty =
      .refused .illegalHostInput ∧
    hostMove (.attach ⟨header 0#8 0#8 0#8 0#8, [(0x14D, 0xE7#8)], [], .basic⟩) empty =
      .next (holding ⟨header 0#8 0#8 0#8 0#8, [(0x14D, 0xE7#8)], [], .basic⟩) := ⟨rfl, rfl, rfl⟩

/-- spec/30_encoding.md R117: "The compare is on the whole byte". -/
theorem test_attach_sets_mode :
    (empty.attach (some basic8)).cgb = false ∧ (s1.attach none).cgb = false ∧
    (empty.attach (some (mbc1With regs1))).cgb = true ∧ (header 0xC0#8 0#8 0#8 0#8).supportsCgb = true ∧
    (header 0x81#8 0#8 0#8 0#8).supportsCgb = false ∧ (header 0x40#8 0#8 0#8 0#8).supportsCgb = false := by decide

/-- spec/30_encoding.md R118: the ends of each range of type codes, and the codes beside them. -/
theorem test_type_variants :
    [0x00#8, 0x02#8, 0x03#8, 0x0E#8, 0x0F#8, 0x13#8, 0x14#8, 0x18#8, 0x19#8, 0x1B#8, 0x1C#8].map
        (fun code => (typeLine code).map (·.variant)) =
      [some .basic, some .basic, none, none, some .mbc3, some .mbc3, none, none, some .mbc1, some .mbc1, none] := by
  decide

/-- spec/30_encoding.md R120: "Note the order: 0x04 is larger than 0x05". -/
theorem test_ram_sizes :
    [0#8, 2#8, 3#8, 4#8, 5#8].map (fun code => (header 0#8 0x10#8 0#8 code).xramLen) =
      [0, 0x2000, 0x8000, 0x20000, 0x10000] ∧
    [0#8, 2#8, 3#8, 4#8, 5#8].map (fun code => (header 0#8 0x10#8 0#8 code).xramBanks) = [0, 1, 4, 16, 8] := by decide

/-- An array in canonical form drops a byte written as 0x00 and keeps rising order. -/
theorem test_memory_canonical :
    Memory.write [(3, 1#8), (9, 2#8)] 5 7#8 = [(3, 1#8), (5, 7#8), (9, 2#8)] ∧
    Memory.write [(3, 1#8), (9, 2#8)] 3 0#8 = [(9, 2#8)] := by decide

/-- A 32 KiB file: 0x0F at 0x0147 (MBC3 with timer and battery), zeros elsewhere but for the checksum. -/
def timerFile : List Byte :=
  List.replicate 0x147 0x00#8 ++ 0x0F#8 :: (List.replicate 5 0x00#8 ++ 0xD8#8 :: List.replicate 0x7EB2 0x00#8)

/-- spec/60_exceptions.md R277: "A region of 25 zero bytes gives" 0xE7; 0x0F less is 0xD8. -/
theorem test_checksum : headerChecksum (List.replicate 0x150 0x00#8) = 0xE7#8 ∧ headerChecksum timerFile = 0xD8#8 := by
  decide +kernel

/-! ## The hypotheses of the obligations can be met -/

/-- A legal RTC save. -/
def timerSave : Save := ⟨[], some ⟨noon, Rtc.zero, 5⟩⟩

theorem timerFile_length : timerFile.length = 0x8000 := by
  simp only [timerFile, List.length_append, List.length_cons, List.length_replicate]

theorem witness_DecodeOfEncode :
    (Instr.wrRtcSMbc3 true 0xBFFF#16 59#8).wf = true ∧
      (Instr.wrRtcSMbc3 true 0xBFFF#16 59#8).applies (.mbc3 true 8#4) = true ∧
    (Instr.wrLatchXMbc3 false 0x7FFF#16 2#8).wf = true ∧
      (Instr.wrLatchXMbc3 false 0x7FFF#16 2#8).applies (.mbc3 false 0#4) = true ∧
    (Instr.rdOpen true 0xFF7F#16).wf = true ∧ (Instr.rdOpen true 0xFF7F#16).applies .noCart = true := by decide

/-- Both ends of every range of spec/30_encoding.md R103. -/
theorem witness_RouteIsBitPatterns :
    route 0x0000#16 = .rom ∧ route 0x7FFF#16 = .rom ∧ route 0x8000#16 = .openBus ∧ route 0x9FFF#16 = .openBus ∧
    route 0xA000#16 = .xram ∧ route 0xBFFF#16 = .xram ∧ route 0xC000#16 = .wram ∧ route 0xDFFF#16 = .wram ∧
    route 0xE000#16 = .openBus ∧ route 0xFF6F#16 = .openBus ∧ route 0xFF70#16 = .svbk ∧
    route 0xFF71#16 = .openBus ∧ route 0xFF7F#16 = .openBus ∧ route 0xFF80#16 = .hram ∧
    route 0xFFFE#16 = .hram ∧ route 0xFFFF#16 = .openBus := by decide

theorem witness_StepRunsDecoded :
    State.reset.queue = [] ∧
    { empty with queue := [.transaction ⟨0x2FFFF00#26, [], 0⟩, .host .tick] }.queue =
      .transaction ⟨0x2FFFF00#26, [], 0⟩ :: [.host .tick] ∧
    { empty with queue := [.host .tick] }.queue = .host .tick :: [] := ⟨rfl, rfl, rfl⟩

/-- The fixtures meet the invariant. -/
theorem inv_fixtures :
    empty.Inv ∧ (holding basic8).Inv ∧ (holding basic0).Inv ∧ s1.Inv ∧ (s3 true 8#4).Inv := by
  unfold State.Inv
  decide +kernel

theorem exists_next {i : Instr} {s : State} (h : (after i s).isSome = true) : ∃ t, exec i s = .next t := by
  unfold after at h
  split at h
  · exact ⟨_, by assumption⟩
  · cases h

theorem exists_two_next {i : Instr} {f : State → Instr} {s : State}
    (h : ((after i s).bind fun t => after (f t) t).isSome = true) :
    ∃ t t', exec i s = .next t ∧ exec (f t) t = .next t' := by
  cases ha : exec i s with
  | next t =>
    have h : (after (f t) t).isSome = true := by simpa [after, ha] using h
    obtain ⟨t', ht⟩ := exists_next h
    exact ⟨t, t', rfl, ht⟩
  | fault e => simp [after, ha] at h
  | refused e => simp [after, ha] at h

/-- An MBC3 whose clock stands at 0 may be advanced at any sample. -/
theorem clockFine_s3 (gate : Bool) (sel : BitVec 4) (u : Bool) : (s3 gate sel).ClockFine u := by
  rintro c r ⟨hc, hr⟩ -
  cases hc
  cases hr
  exact Nat.zero_le _

theorem clockFine_empty (u : Bool) : empty.ClockFine u := by
  rintro c r ⟨hc, -⟩
  cases hc

theorem clockFine_s1 (u : Bool) : s1.ClockFine u := by
  rintro c r ⟨hc, hr⟩
  cases hc
  cases hr

/-- The MBC3 fixture holds its cartridge. -/
theorem s3_has (gate : Bool) (sel : BitVec 4) : (s3 gate sel).HasMbc3 (mbc3With (regs3 gate sel noon)) (regs3 gate sel noon) :=
  ⟨rfl, rfl⟩

theorem s1_has : s1.HasMbc1 (mbc1With regs1) regs1 := ⟨rfl, rfl⟩

/-- A transaction, and a host move. -/
theorem witness_StepKeepsInvariant :
    (∃ t, { s1 with queue := [.transaction ⟨0x3200005#26, [], 0⟩] }.Inv ∧
      step { s1 with queue := [.transaction ⟨0x3200005#26, [], 0⟩] } = .next t) ∧
    ∃ t, { s1 with queue := [.host .detach] }.Inv ∧ step { s1 with queue := [.host .detach] } = .next t :=
  ⟨⟨_, inv_fixtures.2.2.2.1, rfl⟩, ⟨_, inv_fixtures.2.2.2.1, rfl⟩⟩

/-- A clock sample of exactly the timestamp. -/
theorem witness_EveryTransactionAnswers :
    { s3 true 8#4 with queue := [.transaction ⟨0x2FFFF00#26, [], 0⟩] }.Inv ∧
      { s3 true 8#4 with queue := [.transaction ⟨0x2FFFF00#26, [], 0⟩] }.queue =
        .transaction ⟨0x2FFFF00#26, [], 0⟩ :: [] ∧
      ∀ c m, { s3 true 8#4 with queue := [.transaction ⟨0x2FFFF00#26, [], 0⟩] }.HasMbc3 c m →
        m.lastUpdateTime ≤ 0 := by
  refine ⟨inv_fixtures.2.2.2.2, rfl, ?_⟩
  rintro c m ⟨hc, hm⟩
  cases hc
  cases hm
  exact Nat.le_refl _

/-- The right side of the equivalence, met one tick below the timestamp. -/
theorem witness_BackwardsClockIsRefused :
    (Instr.rdSvbk true).updateRtc = true ∧
      ∃ c r, { holding (mbc3With { regs3 true 8#4 noon with lastUpdateTime := 10 }) with now := 9 }.HasMbc3 c r ∧
        9 < r.lastUpdateTime := ⟨rfl, _, _, ⟨rfl, rfl⟩, by decide⟩

theorem witness_NoCartridgeIsOpenBus : empty.cart = none := rfl

theorem witness_BasicRomWindow : (holding basic8).cart = some basic8 ∧ basic8.ctrl = .basic := ⟨rfl, rfl⟩

/-- The last address of the RAM, and a cartridge without RAM. -/
theorem witness_BasicXramWindow :
    (holding basic8).cart = some basic8 ∧ basic8.ctrl = .basic ∧
      (0xBFFF#16).toNat - 0xA000 < basic8.header.xramLen ∧
    (holding basic0).cart = some basic0 ∧ basic0.ctrl = .basic ∧
      basic0.header.xramLen ≤ (0xA000#16).toNat - 0xA000 := by decide

/-- Each RAM code, and each Basic type. -/
theorem witness_BasicSizes :
    (header 0#8 0x10#8 0#8 0x00#8).ramSize = 0x00#8 ∧ (header 0#8 0x10#8 0#8 0x02#8).ramSize = 0x02#8 ∧
      (header 0#8 0x10#8 0#8 0x03#8).ramSize = 0x03#8 ∧ (header 0#8 0x10#8 0#8 0x04#8).ramSize = 0x04#8 ∧
      (header 0#8 0x10#8 0#8 0x05#8).ramSize = 0x05#8 ∧
    (header 0#8 0x00#8 0#8 0x00#8).valid = true ∧ (header 0#8 0x01#8 0#8 0x00#8).valid = true ∧
      (header 0#8 0x02#8 0#8 0x02#8).valid = true := by decide

theorem witness_BasicRomIsFlat :
    (holding basic8).Inv ∧ (holding basic8).cart = some basic8 ∧ basic8.ctrl = .basic ∧
      (0x7FFF#16).toNat ≤ 0x7FFF := ⟨inv_fixtures.2.1, rfl, rfl, by decide⟩

theorem witness_Mbc1CommandsSetOneRegister : s1.HasMbc1 (mbc1With regs1) regs1 := s1_has

theorem witness_Mbc1RomBanks : s1.HasMbc1 (mbc1With regs1) regs1 := s1_has

/-- The gate closed; the gate open, at the last byte of bank 1. -/
theorem witness_Mbc1XramWindow :
    (holding (mbc1With { regs1 with ramEnable := false })).HasMbc1 (mbc1With { regs1 with ramEnable := false })
        { regs1 with ramEnable := false } ∧
      (0 : Nat) = (if regs1.mode = 1#1 ∧ 0x2000 < (mbc1With regs1).header.xramLen then regs1.ramBank.toNat else 0) *
        0x2000 + ((0xA000#16).toNat - 0xA000) ∧
    (holding (mbc1With { regs1 with mode := 1#1 })).HasMbc1 (mbc1With { regs1 with mode := 1#1 })
        { regs1 with mode := 1#1 } ∧
      0xA000 ≤ (0xBFFF#16).toNat ∧ (0xBFFF#16).toNat ≤ 0xBFFF ∧
      (0x3FFF : Nat) = (if (1#1 : BitVec 1) = 1#1 ∧ 0x2000 < (mbc1With regs1).header.xramLen then regs1.ramBank.toNat
        else 0) * 0x2000 + ((0xBFFF#16).toNat - 0xA000) ∧
      regs1.ramEnable = true ∧ (mbc1With regs1).header.xramLen ≠ 0 :=
  ⟨⟨rfl, rfl⟩, by decide, ⟨rfl, rfl⟩, by decide, by decide, by decide, by decide, by decide⟩

theorem witness_Mbc3CommandsSetOneRegister :
    (s3 true 0#4).HasMbc3 (mbc3With (regs3 true 0#4 noon)) (regs3 true 0#4 noon) ∧ (s3 true 0#4).ClockFine true :=
  ⟨s3_has _ _, clockFine_s3 _ _ _⟩

/-- Idle and armed. -/
theorem witness_Mbc3LatchMachine :
    (s3 true 0#4).HasMbc3 (mbc3With (regs3 true 0#4 noon)) (regs3 true 0#4 noon) ∧ (s3 true 0#4).ClockFine true ∧
      (regs3 true 0#4 noon).latchState = 0#1 ∧
    (holding (mbc3With { regs3 true 0#4 noon with latchState := 1#1 })).HasMbc3
      (mbc3With { regs3 true 0#4 noon with latchState := 1#1 }) { regs3 true 0#4 noon with latchState := 1#1 } ∧
    (holding (mbc3With { regs3 true 0#4 noon with latchState := 1#1 })).ClockFine false :=
  ⟨s3_has _ _, clockFine_s3 _ _ _, rfl, ⟨rfl, rfl⟩, fun _ _ _ h => nomatch h⟩

theorem witness_Mbc3RomBanks :
    (s3 false 0#4).HasMbc3 (mbc3With (regs3 false 0#4 noon)) (regs3 false 0#4 noon) ∧ (s3 false 0#4).ClockFine true ∧
      (0x3FFF#16).toNat ≤ 0x3FFF := ⟨s3_has _ _, clockFine_s3 _ _ _, by decide⟩

/-- The gate closed; both ends of both ranges of unassigned selectors, which no other clause takes in. -/
theorem witness_Mbc3WindowIsOpenBus :
    (∀ sel, (s3 false sel).HasMbc3 (mbc3With (regs3 false sel noon)) (regs3 false sel noon) ∧
      (s3 false sel).ClockFine true ∧ (regs3 false sel noon).ramTimerEnable = false) ∧
    (∀ sel, (s3 true sel).HasMbc3 (mbc3With (regs3 true sel noon)) (regs3 true sel noon) ∧
      (s3 true sel).ClockFine true ∧ (regs3 true sel noon).ramTimerEnable = true) ∧
    (∀ sel ∈ [4#4, 7#4, 13#4, 15#4],
      (4 ≤ sel.toNat ∧ sel.toNat ≤ 7) ∨ (13 ≤ sel.toNat ∧ sel.toNat ≤ 15)) :=
  ⟨fun _ => ⟨s3_has _ _, clockFine_s3 _ _ _, rfl⟩, fun _ => ⟨s3_has _ _, clockFine_s3 _ _ _, rfl⟩, by decide⟩

/-- No RAM; 32 KiB of RAM at its last byte. -/
theorem witness_Mbc3XramBanks :
    (holding ⟨header 0#8 0x0F#8 0#8 0#8, [], [], .mbc3 (regs3 true 0#4 noon)⟩).HasMbc3
        ⟨header 0#8 0x0F#8 0#8 0#8, [], [], .mbc3 (regs3 true 0#4 noon)⟩ (regs3 true 0#4 noon) ∧
      (holding ⟨header 0#8 0x0F#8 0#8 0#8, [], [], .mbc3 (regs3 true 0#4 noon)⟩).ClockFine false ∧
      (header 0#8 0x0F#8 0#8 0#8).xramLen = 0 ∧
    (s3 true 3#4).HasMbc3 (mbc3With (regs3 true 3#4 noon)) (regs3 true 3#4 noon) ∧ (s3 true 3#4).ClockFine true ∧
      (3#4).toNat ≤ 3 ∧ 0xA000 ≤ (0xBFFF#16).toNat ∧ (0xBFFF#16).toNat ≤ 0xBFFF ∧
      0x7FFF = (3#4).toNat % ((mbc3With (regs3 true 3#4 noon)).header.xramLen / 0x2000) * 0x2000 +
        ((0xBFFF#16).toNat - 0xA000) ∧
      (mbc3With (regs3 true 3#4 noon)).header.xramLen ≠ 0 :=
  ⟨⟨rfl, rfl⟩, fun _ _ _ h => (nomatch h), by decide, s3_has _ _, clockFine_s3 _ _ _, by decide, by decide, by decide,
    by decide, by decide⟩

/-- Every selector of the five clauses. -/
theorem witness_Mbc3ReadsLatchedRegister (sel : BitVec 4) :
    (s3 true sel).HasMbc3 (mbc3With (regs3 true sel noon)) (regs3 true sel noon) ∧ (s3 true sel).ClockFine true ∧
      (regs3 true sel noon).ramTimerEnable = true ∧ (regs3 true sel noon).sel = sel :=
  ⟨s3_has _ _, clockFine_s3 _ _ _, rfl, rfl⟩

theorem witness_Mbc3WritesLiveRegister (sel : BitVec 4) :
    (s3 true sel).HasMbc3 (mbc3With (regs3 true sel noon)) (regs3 true sel noon) ∧ (s3 true sel).ClockFine true ∧
      (regs3 true sel noon).ramTimerEnable = true ∧ (regs3 true sel noon).sel = sel :=
  witness_Mbc3ReadsLatchedRegister sel

theorem witness_HaltedAdvanceOnlyMovesTimestamp : (0x40#8 : Byte).getLsbD 6 = true := by decide

/-- The last second before the day counter overflows. -/
theorem witness_RunningAdvanceAddsSeconds :
    (Rtc.mk 59#8 59#8 23#8 255#8 0x01#8).canonical = true ∧ (0x01#8 : Byte).getLsbD 6 = false ∧
      (regs3 true 0#4 noon).lastUpdateTime ≤ 1 := by decide

theorem witness_AdvanceKeepsFraction :
    1 ≤ 1000 ∧ (regs3 true 0#4 noon).live.dh.getLsbD 6 = false ∧ (regs3 true 0#4 noon).lastUpdateTime ≤ 2999 := by
  decide

theorem witness_AdvanceIsAdditive :
    1 ≤ 1000 ∧ (regs3 true 0#4 noon).live.canonical = true ∧ (regs3 true 0#4 noon).live.dh.getLsbD 6 = false ∧
      (regs3 true 0#4 noon).lastUpdateTime ≤ 300 ∧ 300 ≤ 600 := by decide

theorem witness_SumIsRippleCarries : (Rtc.mk 59#8 59#8 23#8 255#8 0xC1#8).canonical = true := by decide

theorem witness_ClockMovesOnlyByPrestep :
    (∃ t, exec (.rdSvbk true) (s3 true 8#4) = .next t ∧
      (s3 true 8#4).HasMbc3 (mbc3With (regs3 true 8#4 noon)) (regs3 true 8#4 noon)) ∧
    isRtcWrite (.rdSvbk true) = false ∧
    ∃ t, exec (.rdSvbk true) s1 = .next t ∧ s1.mbc3? = none := ⟨⟨_, rfl, s3_has _ _⟩, rfl, _, rfl, rfl⟩

/-- The flag set and kept by a read; a `DH` write. -/
theorem witness_OverflowIsSticky :
    (∃ t c' r', (holding (mbc3With (regs3 true 12#4 { noon with dh := 0x80#8 }))).HasMbc3
        (mbc3With (regs3 true 12#4 { noon with dh := 0x80#8 })) (regs3 true 12#4 { noon with dh := 0x80#8 }) ∧
      exec (.rdSvbk false) (holding (mbc3With (regs3 true 12#4 { noon with dh := 0x80#8 }))) = .next t ∧
      t.HasMbc3 c' r' ∧ (0x80#8 : Byte).getLsbD 7 = true ∧
      ∀ u a d, Instr.rdSvbk false ≠ .wrRtcDhMbc3 u a d) ∧
    ∃ t c' r', exec (.wrRtcDhMbc3 false 0xA000#16 0x00#8) (s3 true 12#4) = .next t ∧ t.HasMbc3 c' r' :=
  ⟨⟨_, _, _, ⟨rfl, rfl⟩, rfl, ⟨rfl, rfl⟩, by decide, fun _ _ _ h => nomatch h⟩, _, _, _, rfl, rfl, rfl⟩

theorem witness_LatchedChangeOnlyByLatch :
    (∃ t c' r', (s3 true 8#4).HasMbc3 (mbc3With (regs3 true 8#4 noon)) (regs3 true 8#4 noon) ∧
      exec (.wrLatchXMbc3 false 0x6000#16 2#8) (s3 true 8#4) = .next t ∧ t.HasMbc3 c' r') ∧
    isLatchWrite (.rdSvbk false) = false := ⟨⟨_, _, _, s3_has _ _, rfl, rfl, rfl⟩, rfl⟩

theorem witness_RomAndModeAreFixed : ∃ t, exec (.wrRomBasic true 0x2000#16 0xFF#8) (holding basic8) = .next t :=
  ⟨_, rfl⟩

/-- Both kinds of gate. -/
theorem witness_ClosedGateProtects :
    (∃ t, (holding (mbc1With { regs1 with ramEnable := false })).gateClosed ∧
      exec (.wrXramMbc1 true 0xA000#16 0x55#8) (holding (mbc1With { regs1 with ramEnable := false })) = .next t) ∧
    ∃ t c' r', (s3 false 8#4).gateClosed ∧ exec (.wrXramMbc3Off false 0xA000#16 30#8) (s3 false 8#4) = .next t ∧
      (s3 false 8#4).HasMbc3 (mbc3With (regs3 false 8#4 noon)) (regs3 false 8#4 noon) ∧ t.HasMbc3 c' r' :=
  ⟨⟨_, ⟨_, rfl, .inl ⟨_, rfl, rfl⟩⟩, rfl⟩, _, _, _, ⟨_, rfl, .inr ⟨_, rfl, rfl⟩⟩, rfl, s3_has _ _, rfl, rfl⟩

theorem witness_RegistersChangeOnlyByOwnCommand :
    (∃ t, exec (.wrRombMbc1 true 0x2000#16 3#8) s1 = .next t ∧ s1.HasMbc1 (mbc1With regs1) regs1) ∧
    (∀ u a d, Instr.wrRombMbc1 true 0x2000#16 3#8 ≠ .wrRambMbc1 u a d) ∧
    ∃ t, exec (.wrSelMbc3 true 0x4000#16 3#8) (s3 true 8#4) = .next t ∧
      (s3 true 8#4).HasMbc3 (mbc3With (regs3 true 8#4 noon)) (regs3 true 8#4 noon) :=
  ⟨⟨_, rfl, s1_has⟩, fun _ _ _ h => (nomatch h), _, rfl, s3_has _ _⟩

theorem witness_OnlyStoresChangeMemory :
    (∃ t, exec (.wrRombMbc1 true 0x2000#16 3#8) s1 = .next t) ∧
      storesXram (.wrRombMbc1 true 0x2000#16 3#8) = false ∧ storesWram (.wrRombMbc1 true 0x2000#16 3#8) = false ∧
      storesHram (.wrRombMbc1 true 0x2000#16 3#8) = false ∧ storesSvbk (.wrRombMbc1 true 0x2000#16 3#8) = false :=
  ⟨⟨_, rfl⟩, rfl, rfl, rfl, rfl⟩

theorem witness_WorkRamStoreChangesOneByte :
    empty.Inv ∧ (∃ t, exec (.wrWram0 true 0xCFFF#16 1#8) empty = .next t) ∧
      (∃ t, exec (.wrWramX true 0xDFFF#16 1#8) empty = .next t) ∧
      ∃ t, exec (.wrHram true 0xFFFE#16 1#8) empty = .next t :=
  ⟨inv_fixtures.1, exists_next (by decide), exists_next (by decide), exists_next (by decide)⟩

theorem witness_XramStoreChangesOneByte :
    ((holding basic8).Inv ∧ ∃ t, exec (.wrXramBasic true 0xBFFF#16 1#8) (holding basic8) = .next t) ∧
    (s1.Inv ∧ ∃ t, exec (.wrXramMbc1 true 0xBFFF#16 1#8) s1 = .next t) ∧
    ((s3 true 8#4).Inv ∧ ∃ t, exec (.wrXramMbc3Ram true 0xBFFF#16 1#8) (s3 true 3#4) = .next t) ∧
    (s3 true 3#4).Inv := by
  refine ⟨⟨inv_fixtures.2.1, _, rfl⟩, ⟨inv_fixtures.2.2.2.1, _, rfl⟩, ⟨inv_fixtures.2.2.2.2, _, rfl⟩, ?_⟩
  unfold State.Inv
  decide +kernel

/-- Both ends of both banks. -/
theorem witness_WorkRamReads :
    (s3 true 8#4).ClockFine true ∧ 0xC000 ≤ (0xCFFF#16).toNat ∧ (0xCFFF#16).toNat ≤ 0xCFFF ∧
      0xD000 ≤ (0xD000#16).toNat ∧ (0xD000#16).toNat ≤ 0xDFFF := ⟨clockFine_s3 _ _ _, by decide⟩

theorem witness_WorkRamWrites :
    (s3 true 8#4).ClockFine true ∧ 0xC000 ≤ (0xC000#16).toNat ∧ (0xC000#16).toNat ≤ 0xCFFF ∧
      0xD000 ≤ (0xDFFF#16).toNat ∧ (0xDFFF#16).toNat ≤ 0xDFFF := ⟨clockFine_s3 _ _ _, by decide⟩

theorem witness_HighRamAccess :
    (s3 true 8#4).ClockFine true ∧ 0xFF80 ≤ (0xFFFE#16).toNat ∧ (0xFFFE#16).toNat ≤ 0xFFFE :=
  ⟨clockFine_s3 _ _ _, by decide⟩

/-- CGB mode and DMG mode. -/
theorem witness_SvbkAccess :
    s1.ClockFine true ∧ s1.cgb = true ∧ (s3 true 8#4).ClockFine true ∧ (s3 true 8#4).cgb = false :=
  ⟨clockFine_s1 _, rfl, clockFine_s3 _ _ _, rfl⟩

theorem witness_SvbkRoundTrip :
    s1.readObserver = none ∧ ∃ t t', exec (.wrSvbk true 3#8) s1 = .next t ∧ exec (.rdSvbk true) t = .next t' :=
  ⟨rfl, _, _, rfl, rfl⟩

theorem witness_DmgWorkRamIsFlat :
    empty.ClockFine true ∧ empty.cgb = false ∧ 0xC000 ≤ (0xDFFF#16).toNat ∧ (0xDFFF#16).toNat ≤ 0xDFFF :=
  ⟨clockFine_empty _, rfl, by decide⟩

/-- The last byte of each of the two ranges. -/
theorem witness_WorkRamReadsBack :
    empty.Inv ∧ empty.readObserver = none ∧
      ((0xC000 ≤ (0xDFFF#16).toNat ∧ (0xDFFF#16).toNat ≤ 0xDFFF) ∨
        (0xFF80 ≤ (0xDFFF#16).toNat ∧ (0xDFFF#16).toNat ≤ 0xFFFE)) ∧
      (∃ t t', exec (decodeWrite empty.view true 0xDFFF#16 7#8) empty = .next t ∧
        exec (decodeRead t.view true 0xDFFF#16) t = .next t') ∧
      ∃ t t', exec (decodeWrite empty.view true 0xFFFE#16 7#8) empty = .next t ∧
        exec (decodeRead t.view true 0xFFFE#16) t = .next t' :=
  ⟨inv_fixtures.1, rfl, by decide, exists_two_next (f := fun t => decodeRead t.view true 0xDFFF#16) (by decide),
    exists_two_next (f := fun t => decodeRead t.view true 0xFFFE#16) (by decide)⟩

theorem witness_OpenAddressesAnswer : (s3 true 8#4).ClockFine true := clockFine_s3 _ _ _

theorem witness_ReadsChangeOnlyTheClock :
    (∃ t, exec (.rdSvbk true) (s3 true 8#4) = .next t ∧
      (s3 true 8#4).HasMbc3 (mbc3With (regs3 true 8#4 noon)) (regs3 true 8#4 noon)) ∧
    (∃ t, exec (.rdSvbk true) s1 = .next t ∧ s1.mbc3? = none) ∧
    (Instr.rdSvbk true).isWrite = false ∧ (Instr.rdSvbk true).updateRtc = true :=
  ⟨⟨_, rfl, s3_has _ _⟩, ⟨_, rfl, rfl⟩, rfl, rfl⟩

theorem witness_RepeatingChangesNothing :
    s1.Inv ∧ isLatchWrite (.wrXramMbc1 true 0xA000#16 1#8) = false ∧ s1.mbc3? = none ∧
      ∃ t, exec (.wrXramMbc1 true 0xA000#16 1#8) s1 = .next t := ⟨inv_fixtures.2.2.2.1, rfl, rfl, _, rfl⟩

/-- With and without each observer. -/
theorem witness_ObserverSeesEveryTransaction :
    (∃ t, exec (.rdSvbk true) empty = .next t ∧ empty.readObserver = none) ∧
    (∃ t, exec (.rdSvbk true) { empty with readObserver := some 1 } = .next t) ∧
    (∃ t, exec (.wrSvbk true 0#8) empty = .next t ∧ empty.writeObserver = none) ∧
    ∃ t, exec (.wrSvbk true 0#8) { empty with writeObserver := some 1 } = .next t :=
  ⟨⟨_, rfl, rfl⟩, ⟨_, rfl⟩, ⟨_, rfl, rfl⟩, _, rfl⟩

theorem witness_ObserversChangeNoState : ∃ t, exec (.wrRombMbc1 true 0x2000#16 3#8) s1 = .next t := ⟨_, rfl⟩

/-- A DMG cartridge, a CGB one, and none; then a wrong checksum, a header that is not the ROM's, and a header the validator fails. -/
theorem witness_AttachResetsMemory :
    (∀ c, some basic8 = some c → c.legal = true) ∧ (∀ c, some (mbc1With regs1) = some c → c.legal = true) ∧
    (∀ c, (none : Option Cart) = some c → c.legal = true) ∧
    headerChecksum { basic8 with rom := [] }.headerImage ≠ Memory.read [] 0x014D ∧
    parseHeader { basic8 with header := basic0.header }.headerImage ≠ basic0.header ∧
    (header 0#8 0x00#8 1#8 0#8).valid = false := by
  refine ⟨?_, ?_, by simp, by decide +kernel⟩
  · rintro c h
    cases h
    exact inv_fixtures.2.1.2.1
  · rintro c h
    cases h
    exact inv_fixtures.2.2.2.1.2.1

theorem makeCart_short : makeCart [] 0 = .error .malformedHeader := rfl

theorem witness_FailedLoadLeavesNoCartridge : makeCart [] 0 = .error .malformedHeader := makeCart_short

theorem parseHeader_timerFile : parseHeader timerFile = ⟨[], 0#8, 0x0F#8, 0#8, 0#8, 0xD8#8⟩ := by decide +kernel

/-- The file with the timer loads. -/
theorem makeCart_timerFile : makeCart timerFile 9 = .ok (finalizeCart (parseHeader timerFile) .mbc3 timerFile 9) := by
  have hs : headerChecksum timerFile = fileByte timerFile 0x014D := by decide +kernel
  have hl : (Header.mk [] 0#8 0x0F#8 0#8 0#8 0xD8#8).romLen = 0x8000 := by decide
  have hv : (Header.mk [] 0#8 0x0F#8 0#8 0#8 0xD8#8).valid = true := by decide
  unfold makeCart
  simp only [timerFile_length, hs, parseHeader_timerFile, hl, hv]
  rfl

/-- A file of exactly 0x0150 bytes with this type code, ROM size code and checksum byte, zeros elsewhere. -/
def headerFile (type romSize ck : Byte) : List Byte :=
  List.replicate 0x147 0x00#8 ++ type :: romSize :: (List.replicate 4 0x00#8 ++ [ck, 0x00#8, 0x00#8])

/-- One file for every clause: too short; a wrong checksum byte; an unlisted type; a size its type does not allow; a file
shorter than its header says; a good one. -/
theorem witness_LoadChecksInOrder :
    (List.replicate 0x14F 0#8 : List Byte).length < 0x0150 ∧
    (0x0150 ≤ (headerFile 0x00#8 0#8 0xE8#8).length ∧
      headerChecksum (headerFile 0x00#8 0#8 0xE8#8) ≠ (headerFile 0x00#8 0#8 0xE8#8).getD 0x014D 0x00#8) ∧
    (0x0150 ≤ (headerFile 0x03#8 0#8 0xE4#8).length ∧
      typeLine (parseHeader (headerFile 0x03#8 0#8 0xE4#8)).cartridgeType = none) ∧
    (0x0150 ≤ (headerFile 0x00#8 1#8 0xE6#8).length ∧
      headerChecksum (headerFile 0x00#8 1#8 0xE6#8) = (headerFile 0x00#8 1#8 0xE6#8).getD 0x014D 0x00#8 ∧
      typeLine (parseHeader (headerFile 0x00#8 1#8 0xE6#8)).cartridgeType ≠ none ∧
      (parseHeader (headerFile 0x00#8 1#8 0xE6#8)).valid = false) ∧
    (0x0150 ≤ (headerFile 0x0F#8 0#8 0xD8#8).length ∧
      headerChecksum (headerFile 0x0F#8 0#8 0xD8#8) = (headerFile 0x0F#8 0#8 0xD8#8).getD 0x014D 0x00#8 ∧
      typeLine (parseHeader (headerFile 0x0F#8 0#8 0xD8#8)).cartridgeType ≠ none ∧
      (parseHeader (headerFile 0x0F#8 0#8 0xD8#8)).valid = true ∧
      (headerFile 0x0F#8 0#8 0xD8#8).length < (parseHeader (headerFile 0x0F#8 0#8 0xD8#8)).romLen) ∧
    (0x0150 ≤ timerFile.length ∧ headerChecksum timerFile = timerFile.getD 0x014D 0x00#8 ∧
      typeLine (parseHeader timerFile).cartridgeType ≠ none ∧ (parseHeader timerFile).valid = true ∧
      (parseHeader timerFile).romLen ≤ timerFile.length) := by
  decide +kernel

theorem witness_ChecksumClosedForm : 0x014D ≤ timerFile.length := by
  rw [timerFile_length]
  decide

theorem witness_FinalizeDefaults :
    makeCart timerFile 9 = .ok (finalizeCart (parseHeader timerFile) .mbc3 timerFile 9) := makeCart_timerFile

/-- A good load with no save, for a DMG cartridge, over a context whose work RAM holds a byte. -/
theorem load_dmg {file : List Byte} {c : Cart} (h : makeCart file 9 = .ok c) (hc : c.header.supportsCgb = false) :
    hostMove (.load file none 9) { empty with wram := [(5, 7#8)], report := some .busMisuse } =
      .next (holding c) := by
  refine loadMove_next.2 (.inr ⟨c, h, .inl ⟨rfl, ?_⟩⟩)
  simp only [holding, empty, State.reset, State.attach, Option.any_some, hc]
  rfl

/-- spec/60_exceptions.md R281, spec/70_reset_and_hazards.md R301: a good load with no save attaches the cartridge of the
file, and the byte work RAM held is gone. -/
theorem test_load_without_save :
    ∃ c, makeCart timerFile 9 = .ok c ∧
      hostMove (.load timerFile none 9) { empty with wram := [(5, 7#8)], report := some .busMisuse } =
        .next (holding c) :=
  have h : (parseHeader timerFile).supportsCgb = false := by rw [parseHeader_timerFile]; rfl
  ⟨_, makeCart_timerFile, load_dmg makeCart_timerFile h⟩

/-- No save; a save with the RTC and one without. -/
theorem witness_SaveRoundTrip :
    makeCart timerFile 9 = .ok (finalizeCart (parseHeader timerFile) .mbc3 timerFile 9) ∧
      timerSave.legal (finalizeCart (parseHeader timerFile) .mbc3 timerFile 9).header = true ∧
      (Save.mk [] none).legal (finalizeCart (parseHeader timerFile) .mbc3 timerFile 9).header = true ∧
      (finalizeCart (parseHeader timerFile) .mbc3 timerFile 9).ctrl = .mbc3 (Mbc3.initial 9) ∧
      timerSave.rtc = some ⟨noon, Rtc.zero, 5⟩ := by
  refine ⟨makeCart_timerFile, ?_⟩
  suffices timerSave.legal (parseHeader timerFile) = true ∧ (Save.mk [] none).legal (parseHeader timerFile) = true from
    ⟨this.1, this.2, rfl, rfl⟩
  rw [parseHeader_timerFile]
  decide

end Sys2Proof.Tests
end

section
/-! PROOFS. The family of spec/20_memory.md: what a read leaves of the block. -/

namespace Sys2Proof.Machine

theorem mbc3?_of_hasMbc3 {s : State} {c : Cart} {r : Mbc3} (h : s.HasMbc3 c r) : s.mbc3? = some r := by
  obtain ⟨hcart, hctrl⟩ := h
  simp [State.mbc3?, hcart, hctrl]

/-- Putting back the registers the cartridge already has changes nothing. -/
theorem mbc3Set_same {s : State} {c : Cart} {r : Mbc3} (h : s.HasMbc3 c r) : s.mbc3Set c r = s := by
  obtain ⟨hcart, hctrl⟩ := h
  simp [State.mbc3Set, ← hctrl, ← hcart]

/-- With `updateRTC` clear, or no MBC3 to advance, the pre-step does nothing. -/
theorem prestepped_of_noAdvance {s : State} {u : Bool} (h : u = false ∨ s.mbc3? = none) : s.prestepped u = s := by
  rcases prestepped_cases s u with hs | ⟨c, r, hm, -⟩
  · exact hs
  · rcases h with rfl | hnone
    · exact (prestepped_of_mbc3 hm false).trans (mbc3Set_same hm)
    · simp [mbc3?_of_hasMbc3 hm] at hnone

/-- With `updateRTC` set, the pre-step is the advance of the attached MBC3. -/
theorem prestepped_of_advance {s : State} {c : Cart} {r : Mbc3} (h : s.HasMbc3 c r) :
    s.prestepped true = s.mbc3Set c (r.advance s.hostHz s.now) :=
  prestepped_of_mbc3 h true

/-- Returning a byte through the read observer writes the output ports only. -/
theorem sameBlock_finishRead (s : State) (a : Addr) (v : Byte) : SameBlock s (s.finishRead a v) := rfl

/-- A read that answers leaves the block as its pre-step left it. -/
theorem sameBlock_prestepped_of_read {i : Instr} {s t : State} (hi : i.isWrite = false) (h : exec i s = .next t) :
    SameBlock (s.prestepped i.updateRtc) t := by
  obtain ⟨-, v, rfl⟩ := exec_read_next hi h
  exact sameBlock_finishRead _ _ v

/-- Settles O50: after the pre-step a read only writes the output ports, and the pre-step is the RTC advance or
nothing. -/
theorem readsChangeOnlyTheClock : Obligations.ReadsChangeOnlyTheClock := by
  intro i s t hi h
  have hblock := sameBlock_prestepped_of_read hi h
  constructor
  · intro hno
    rwa [prestepped_of_noAdvance hno] at hblock
  · intro c r hm hu
    rwa [hu, prestepped_of_advance hm] at hblock

end Sys2Proof.Machine
end

section
/-! PROOFS. The family of spec/30_encoding.md: the address routing, as bit patterns. -/

namespace Sys2Proof

/-- The addresses of each window, with the gaps that are left to open bus (spec/30_encoding.md R103). -/
def Route.Covers (a : Nat) : Route → Prop
  | .rom => a ≤ 0x7FFF
  | .xram => 0xA000 ≤ a ∧ a ≤ 0xBFFF
  | .wram => 0xC000 ≤ a ∧ a ≤ 0xDFFF
  | .hram => 0xFF80 ≤ a ∧ a ≤ 0xFFFE
  | .svbk => a = 0xFF70
  | .openBus => (0x8000 ≤ a ∧ a ≤ 0x9FFF) ∨ (0xE000 ≤ a ∧ a ≤ 0xFF6F) ∨ (0xFF71 ≤ a ∧ a ≤ 0xFF7F) ∨ a = 0xFFFF

theorem route_covers (a : Addr) : (route a).Covers a.toNat := by
  have ha : a.toNat < 0x10000 := a.isLt
  unfold route
  split_ifs <;> simp only [Route.Covers] <;> omega

/-- The windows are disjoint. -/
theorem Route.Covers.unique {a : Nat} {r r' : Route} (h : r.Covers a) (h' : r'.Covers a) : r = r' := by
  cases r <;> cases r' <;> simp only [Route.Covers, reduceCtorEq] at h h' ⊢ <;> omega

/-- The windows are disjoint, so the order in which `route` tries them does not matter. -/
theorem route_eq_iff (a : Addr) (r : Route) : route a = r ↔ r.Covers a.toNat :=
  ⟨fun h => h ▸ route_covers a, (route_covers a).unique⟩

/-- The top bits of a number say in which aligned block it lies. -/
theorem field_top_eq_iff {v hi lo k : Nat} (hlo : lo ≤ hi + 1) (hv : v < 2 ^ (hi + 1)) :
    field v hi lo = k ↔ k * 2 ^ lo ≤ v ∧ v < (k + 1) * 2 ^ lo := by
  have htop : v / 2 ^ lo < 2 ^ (hi + 1 - lo) :=
    Nat.div_lt_of_lt_mul (by rwa [← pow_add, Nat.add_sub_cancel' hlo])
  rw [field, Nat.mod_eq_of_lt htop, Nat.div_eq_iff (Nat.two_pow_pos lo), Nat.add_one_mul]
  have hpos := Nat.two_pow_pos lo
  omega

/-- `field_top_eq_iff` for the top bits of an address. -/
theorem field_addr_eq_iff (a : Addr) {lo k : Nat} (hlo : lo ≤ 16) :
    field a.toNat 15 lo = k ↔ k * 2 ^ lo ≤ a.toNat ∧ a.toNat < (k + 1) * 2 ^ lo :=
  field_top_eq_iff hlo a.isLt

end Sys2Proof

namespace Sys2Proof.Machine

/-- In an aligned window the relative address is the low address bits. -/
theorem rel_eq_field {a : Addr} {base hi : Nat} (halign : 2 ^ (hi + 1) ∣ base) (hlow : base ≤ a.toNat)
    (hhigh : a.toNat < base + 2 ^ (hi + 1)) : rel a base = field a.toNat hi 0 := by
  obtain ⟨k, rfl⟩ := halign
  have hoff : a.toNat - 2 ^ (hi + 1) * k < 2 ^ (hi + 1) := by omega
  calc rel a (2 ^ (hi + 1) * k)
      = (a.toNat - 2 ^ (hi + 1) * k) % 2 ^ (hi + 1) := (Nat.mod_eq_of_lt hoff).symm
    _ = a.toNat % 2 ^ (hi + 1) := Nat.sub_mul_mod hlow
    _ = field a.toNat hi 0 := by simp [field]

theorem rel_xram {a : Addr} (h : route a = .xram) : rel a 0xA000 = field a.toNat 12 0 := by
  obtain ⟨hlow, hhigh⟩ := (route_eq_iff a .xram).1 h
  exact rel_eq_field (by decide) hlow (by omega)

theorem rel_wram {a : Addr} (h : route a = .wram) : rel a 0xC000 = field a.toNat 12 0 := by
  obtain ⟨hlow, hhigh⟩ := (route_eq_iff a .wram).1 h
  exact rel_eq_field (by decide) hlow (by omega)

/-- The block of high RAM, with `0xFFFF` still in it. -/
theorem rel_hramBlock {a : Addr} (hlow : 0xFF80 ≤ a.toNat) : rel a 0xFF80 = field a.toNat 6 0 :=
  rel_eq_field (by decide) hlow a.isLt

theorem rel_hram {a : Addr} (h : route a = .hram) : rel a 0xFF80 = field a.toNat 6 0 :=
  rel_hramBlock ((route_eq_iff a .hram).1 h).1

theorem route_rom_iff (a : Addr) : route a = .rom ↔ field a.toNat 15 15 = 0 := by
  rw [route_eq_iff, field_addr_eq_iff a (by decide), Route.Covers]
  omega

theorem route_xram_iff (a : Addr) : route a = .xram ↔ field a.toNat 15 13 = 0b101 := by
  rw [route_eq_iff, field_addr_eq_iff a (by decide), Route.Covers]
  omega

theorem route_wram_iff (a : Addr) : route a = .wram ↔ field a.toNat 15 13 = 0b110 := by
  rw [route_eq_iff, field_addr_eq_iff a (by decide), Route.Covers]
  omega

/-- In the top block of 128 addresses, the low bits are all ones at `0xFFFF` only. -/
theorem route_hram_iff (a : Addr) :
    route a = .hram ↔ field a.toNat 15 7 = 0b111111111 ∧ field a.toNat 6 0 ≠ 0b1111111 := by
  have ha : a.toNat < 0x10000 := a.isLt
  rw [route_eq_iff, field_addr_eq_iff a (by decide), Route.Covers]
  by_cases hlow : 0xFF80 ≤ a.toNat
  · rw [← rel_hramBlock hlow, rel]
    omega
  · omega

/-- Settles O5: each window is an aligned block, so its top bits name it and its low bits are the relative address. -/
theorem routeIsBitPatterns : Obligations.RouteIsBitPatterns := fun a =>
  ⟨route_rom_iff a, route_xram_iff a, route_wram_iff a, route_hram_iff a, route_eq_iff a .svbk,
    route_eq_iff a .openBus, rel_xram, rel_wram, rel_hram⟩

end Sys2Proof.Machine
end

section
/-! PROOFS. The family of spec/40_cartridge_common_basic.md: the cartridge windows with no cartridge and with a Basic
one, and what no transaction changes of a cartridge. -/

namespace Sys2Proof.Machine

/-! ## From the access rule to the whole transaction -/

/-- A read answers as its access rule does in the pre-stepped state. -/
theorem readsAs_of_busRead {i : Instr} {s t : State} {u : Bool} {a : Addr} {access : State → Res Byte} {v : Byte}
    (hexec : exec i s = busRead u a access s) (hclock : s.clockOk u = true) (hpre : s.prestepped u = t)
    (haccess : access t = .next v) : ReadsAs i s t a v := by
  subst hpre
  rw [ReadsAs, hexec, busRead_next.2 ⟨hclock, v, haccess, rfl⟩, State.finishRead, State.observedValue,
    prestepped_readObserver]
  cases s.readObserver <;> rfl

/-- A write answers as its access rule does in the pre-stepped state. -/
theorem writesAs_of_busWrite {i : Instr} {s t t' : State} {u : Bool} {a : Addr} {d act : Byte}
    {access : State → Res (State × Byte)} (hexec : exec i s = busWrite u a d access s)
    (hclock : s.clockOk u = true) (hpre : s.prestepped u = t) (haccess : access t = .next (t', act))
    (hobserver : t'.writeObserver = s.writeObserver) : WritesAs i s t' a d act := by
  subst hpre
  rw [WritesAs, hexec, busWrite_next.2 ⟨hclock, t', act, haccess, rfl⟩, State.finishWrite, hobserver]
  cases s.writeObserver <;> rfl

/-! ## Without an MBC3 the pre-step drops out -/

theorem mbc3?_of_none {s : State} (h : s.cart = none) : s.mbc3? = none := by
  simp [State.mbc3?, h]

theorem mbc3?_of_basic {s : State} {c : Cart} (h : s.cart = some c) (hb : c.ctrl = .basic) : s.mbc3? = none := by
  simp [State.mbc3?, h, hb]

/-- Only an MBC3 has a timestamp the sample can lie below. -/
theorem clockOk_of_noMbc3 {s : State} (h : s.mbc3? = none) (u : Bool) : s.clockOk u = true := by
  cases hcart : s.cart with
  | none => exact clockOk_of_none hcart u
  | some c =>
    cases hctrl : c.ctrl with
    | basic => exact clockOk_of_basic hcart hctrl u
    | mbc1 r => exact clockOk_of_mbc1 ⟨hcart, hctrl⟩ u
    | mbc3 r => simp [mbc3?_of_hasMbc3 ⟨hcart, hctrl⟩] at h

theorem readsAs_of_noMbc3 {i : Instr} {s : State} {u : Bool} {a : Addr} {access : State → Res Byte} {v : Byte}
    (h : s.mbc3? = none) (hexec : exec i s = busRead u a access s) (haccess : access s = .next v) :
    ReadsAs i s s a v :=
  readsAs_of_busRead hexec (clockOk_of_noMbc3 h u) (prestepped_of_noAdvance (.inr h)) haccess

theorem writesAs_of_noMbc3 {i : Instr} {s t : State} {u : Bool} {a : Addr} {d act : Byte}
    {access : State → Res (State × Byte)} (h : s.mbc3? = none) (hexec : exec i s = busWrite u a d access s)
    (haccess : access s = .next (t, act)) (hobserver : t.writeObserver = s.writeObserver) :
    WritesAs i s t a d act :=
  writesAs_of_busWrite hexec (clockOk_of_noMbc3 h u) (prestepped_of_noAdvance (.inr h)) haccess hobserver

/-! ## No cartridge, Basic -/

/-- Settles O13: with no cartridge the access rule of each kind is open bus. -/
theorem noCartridgeIsOpenBus : Obligations.NoCartridgeIsOpenBus := by
  intro s u a d hcart
  have hmbc3 := mbc3?_of_none hcart
  have hread : s.withNoCart openRead = .next 0xFF#8 := withNoCart_next.2 ⟨hcart, rfl⟩
  have hwrite : s.withNoCart (droppedWrite s) = .next (s, 0xFF#8) := withNoCart_next.2 ⟨hcart, rfl⟩
  exact ⟨readsAs_of_noMbc3 hmbc3 rfl hread, writesAs_of_noMbc3 hmbc3 rfl hwrite rfl,
    readsAs_of_noMbc3 hmbc3 rfl hread, writesAs_of_noMbc3 hmbc3 rfl hwrite rfl⟩

/-- The ROM length is 32 KiB, doubled for each step of the header's size code (spec/30_encoding.md R119). -/
theorem romLen_eq (h : Header) : h.romLen = 0x8000 * 2 ^ h.romSize.toNat := Nat.shiftLeft_eq _ _

/-- Settles O14: below the ROM length a read takes the ROM's byte; beyond it, and for writes, the bus is open. -/
theorem basicRomWindow : Obligations.BasicRomWindow := by
  intro s c u a d hcart hbasic
  have hmbc3 := mbc3?_of_basic hcart hbasic
  constructor
  · refine readsAs_of_noMbc3 hmbc3 rfl (withBasic_next.2 ⟨c, hcart, hbasic, ?_⟩)
    rw [← romLen_eq]
    by_cases hin : a.toNat < c.header.romLen
    · rw [if_pos hin, if_pos hin]
    · rw [if_neg hin, if_neg hin]
      rfl
  · exact writesAs_of_noMbc3 hmbc3 rfl (withBasic_next.2 ⟨c, hcart, hbasic, rfl⟩) rfl

/-- Settles O15: below the RAM length the offset is read or stored at, beyond it the bus is open. -/
theorem basicXramWindow : Obligations.BasicXramWindow := by
  intro s c u a d hcart hbasic
  have hmbc3 := mbc3?_of_basic hcart hbasic
  constructor
  · intro hin
    exact ⟨readsAs_of_noMbc3 hmbc3 rfl (withBasic_next.2 ⟨c, hcart, hbasic, if_pos hin⟩),
      writesAs_of_noMbc3 hmbc3 rfl (withBasic_next.2 ⟨c, hcart, hbasic, if_pos hin⟩) rfl⟩
  · intro hout
    have hout := Nat.not_lt.2 hout
    exact ⟨readsAs_of_noMbc3 hmbc3 rfl (withBasic_next.2 ⟨c, hcart, hbasic, if_neg hout⟩),
      writesAs_of_noMbc3 hmbc3 rfl (withBasic_next.2 ⟨c, hcart, hbasic, if_neg hout⟩) rfl⟩

/-! ## What no transaction changes of a cartridge -/

/-- The header and the ROM of the attached cartridge. -/
def State.headerAndRom (s : State) : Option (Header × Memory) := s.cart.map fun c => (c.header, c.rom)

/-- The mode is read off the header alone (spec/70_reset_and_hazards.md R308). -/
theorem cgb_eq_any_headerAndRom (s : State) : s.cgb = s.headerAndRom.any (·.1.supportsCgb) := by
  simp [State.cgb, State.headerAndRom, Option.any_map]

theorem prestepped_headerAndRom (s : State) (u : Bool) : (s.prestepped u).headerAndRom = s.headerAndRom := by
  obtain ⟨-, h, -⟩ := prestepped_frame s u
  exact h

theorem headerAndRom_of_writeEffect {i : Instr} {s t : State} (hw : WriteEffect i s t) :
    t.headerAndRom = s.headerAndRom := by
  obtain ⟨-, -, -, -, -, -, -, -, -, -, -, -, h⟩ := writeEffect_frame hw
  exact h

/-- Neither the pre-step nor a write's effect reaches the header or the ROM. -/
theorem exec_headerAndRom {i : Instr} {s t : State} (h : exec i s = .next t) : t.headerAndRom = s.headerAndRom := by
  cases hi : i.isWrite with
  | false =>
    obtain ⟨-, v, rfl⟩ := exec_read_next hi h
    exact prestepped_headerAndRom s i.updateRtc
  | true =>
    obtain ⟨-, s2, act, hw, rfl⟩ := exec_write_next hi h
    exact (headerAndRom_of_writeEffect hw).trans (prestepped_headerAndRom s i.updateRtc)

/-- Settles O36: every transaction keeps header and ROM, and with the header the mode. -/
theorem romAndModeAreFixed : Obligations.RomAndModeAreFixed := by
  intro i s t h
  have hkept := exec_headerAndRom h
  exact ⟨hkept, by rw [cgb_eq_any_headerAndRom, cgb_eq_any_headerAndRom, hkept]⟩

end Sys2Proof.Machine
end

section
/-! PROOFS. The family of spec/41_mbc1.md: the MBC1 command writes. -/

namespace Sys2Proof.Machine

/-! ## What a command write stores, as arithmetic on the byte -/

/-- Masking the low four bits is taking the byte modulo 16. -/
theorem enableCompare_eq_decide (d : Byte) : enableCompare d = decide (d.toNat % 16 = 0x0A) := by
  have hmask : (d &&& 0x0F#8).toNat = d.toNat % 16 := Nat.and_two_pow_sub_one_eq_mod d.toNat 4
  rw [enableCompare, beq_eq_decide, ← hmask]
  exact decide_eq_decide.2 BitVec.toNat_inj.symm

theorem flagByte_decide (p : Prop) [Decidable p] : flagByte (decide p) = if p then 0x01#8 else 0x00#8 := by
  by_cases hp : p <;> simp [flagByte, hp]

theorem setWidth_eq_ofNat_mod (d : Byte) (w : Nat) : d.setWidth w = BitVec.ofNat w (d.toNat % 2 ^ w) := by
  apply BitVec.eq_of_toNat_eq
  simp

/-- Making a masked bank number 0 into 1 is the maximum with 1. -/
theorem promoteZero_setWidth (d : Byte) (w : Nat) :
    (if d.setWidth w = 0#w then 1#w else d.setWidth w) = BitVec.ofNat w (max (d.toNat % 2 ^ w) 1) := by
  have hzero : d.setWidth w = 0#w ↔ d.toNat % 2 ^ w = 0 := by simp [BitVec.toNat_eq]
  split_ifs with h
  · rw [hzero.1 h, Nat.zero_max]
  · rw [Nat.max_eq_left (Nat.pos_of_ne_zero (mt hzero.2 h)), setWidth_eq_ofNat_mod]

theorem mbc1RomBankOf_eq (d : Byte) : mbc1RomBankOf d = BitVec.ofNat 5 (max (d.toNat % 32) 1) :=
  promoteZero_setWidth d 5

theorem mbc1RamBankOf_eq (d : Byte) : mbc1RamBankOf d = BitVec.ofNat 2 (d.toNat % 4) :=
  setWidth_eq_ofNat_mod d 2

theorem mbc1ModeOf_eq (d : Byte) : mbc1ModeOf d = BitVec.ofNat 1 (d.toNat % 2) :=
  setWidth_eq_ofNat_mod d 1

/-! ## The command writes -/

/-- An MBC1 has no pre-step, so a command write is its register update and the acknowledged value. -/
theorem writesAs_of_mbc1Command {i : Instr} {s : State} {c : Cart} {r r' : Mbc1} {u : Bool} {a : Addr}
    {d stored : Byte} {cmd : Command} {f : Mbc1 → Mbc1} {g : Mbc1 → Byte} (h : s.HasMbc1 c r)
    (hexec : exec i s = busWrite u a d (mbc1Command cmd d f g) s) (hupdate : f r = r') (hstored : g r' = stored) :
    WritesAs i s (s.mbc1Set c r') a d (Config.ackCtrl .mbc1 cmd d stored) := by
  subst hupdate hstored
  exact writesAs_of_busWrite hexec (clockOk_of_mbc1 h u) (prestepped_of_mbc1 h u)
    (mbc1Command_next.2 ⟨c, r, h, rfl, rfl⟩) rfl

/-- Settles O18: each command stores its masked byte, and a stored bank or mode fits its register, so the register
reads back as the value acknowledged. -/
theorem mbc1CommandsSetOneRegister : Obligations.Mbc1CommandsSetOneRegister := by
  intro s c r u a d h
  refine ⟨?ramen, ?romb, ?ramb, ?mode⟩
  case ramen =>
    exact writesAs_of_mbc1Command h rfl (by rw [enableCompare_eq_decide]) (flagByte_decide _)
  case romb =>
    exact writesAs_of_mbc1Command h rfl (by rw [mbc1RomBankOf_eq])
      (BitVec.setWidth_ofNat_of_le_of_lt (by decide) (by omega))
  case ramb =>
    exact writesAs_of_mbc1Command h rfl (by rw [mbc1RamBankOf_eq])
      (BitVec.setWidth_ofNat_of_le_of_lt (by decide) (by omega))
  case mode =>
    exact writesAs_of_mbc1Command h rfl (by rw [mbc1ModeOf_eq])
      (BitVec.setWidth_ofNat_of_le_of_lt (by decide) (by omega))

end Sys2Proof.Machine
end

section
/-! PROOFS. The family of spec/42_mbc3.md: the MBC3 command writes and the latch state machine. -/

namespace Sys2Proof.Machine

/-! ## The pre-step of an attached MBC3 -/

theorem hasMbc3_mbc3Set (s : State) (c : Cart) (r : Mbc3) :
    (s.mbc3Set c r).HasMbc3 { c with ctrl := .mbc3 r } r :=
  ⟨rfl, rfl⟩

/-- On an MBC3 the check on the clock sample is the premise of spec/43_rtc.md R209. -/
theorem clockOk_of_clockFine {s : State} {c : Cart} {r : Mbc3} {u : Bool} (h : s.HasMbc3 c r)
    (hclock : s.ClockFine u) : s.clockOk u = true := by
  have hsample : u = true → r.lastUpdateTime ≤ s.now := hclock c r h
  obtain ⟨hcart, hctrl⟩ := h
  cases u <;> simp [State.clockOk, hcart, hctrl, hsample]

/-- The advance does not reach the latch state machine. -/
theorem prestep_latchState (r : Mbc3) (u : Bool) (hz now : Nat) :
    (r.prestep u hz now).latchState = r.latchState := by
  obtain ⟨-, -, -, -, hlatch⟩ := mbc3_prestep_frame r u hz now
  exact hlatch

/-! ## The command writes -/

theorem mbc3RomBankOf_eq (d : Byte) : mbc3RomBankOf d = BitVec.ofNat 7 (max (d.toNat % 128) 1) :=
  promoteZero_setWidth d 7

theorem mbc3SelOf_eq (d : Byte) : mbc3SelOf d = BitVec.ofNat 4 (d.toNat % 16) :=
  setWidth_eq_ofNat_mod d 4

/-- A command write is its update of the registers the pre-step left, and the acknowledged value. -/
theorem writesAs_of_mbc3Command {i : Instr} {s : State} {c : Cart} {r r' : Mbc3} {u : Bool} {a : Addr}
    {d stored : Byte} {cmd : Command} {f : Mbc3 → Mbc3} {g : Mbc3 → Byte} (h : s.HasMbc3 c r)
    (hclock : s.ClockFine u) (hexec : exec i s = busWrite u a d (mbc3Command cmd d f g) s)
    (hupdate : f (r.prestep u s.hostHz s.now) = r') (hstored : g r' = stored) :
    WritesAs i s (s.mbc3Set c r') a d (Config.ackCtrl .mbc3 cmd d stored) := by
  subst hupdate hstored
  exact writesAs_of_busWrite hexec (clockOk_of_clockFine h hclock) (prestepped_of_mbc3 h u)
    (mbc3Command_next.2 ⟨_, _, hasMbc3_mbc3Set s c _, rfl, rfl⟩) rfl

/-- Settles O21: each command stores its masked byte in the registers as the pre-step left them, and a stored bank or
selector fits its register, so the register reads back as the value acknowledged. -/
theorem mbc3CommandsSetOneRegister : Obligations.Mbc3CommandsSetOneRegister := by
  rintro s c r p u a d h hclock rfl
  refine ⟨?ramen, ?romb, ?sel⟩
  case ramen =>
    exact writesAs_of_mbc3Command h hclock rfl (by rw [enableCompare_eq_decide]; rfl) (flagByte_decide _)
  case romb =>
    exact writesAs_of_mbc3Command h hclock rfl (by rw [mbc3RomBankOf_eq]; rfl)
      (BitVec.setWidth_ofNat_of_le_of_lt (by decide) (by omega))
  case sel =>
    exact writesAs_of_mbc3Command h hclock rfl (by rw [mbc3SelOf_eq]; rfl)
      (BitVec.setWidth_ofNat_of_le_of_lt (by decide) (by omega))

/-! ## The latch state machine -/

/-- Settles O22: a latch command is one update of the registers as the pre-step left them; the pre-step keeps the
latch state, so a 0x01 write branches on the state the machine was in before the transaction. -/
theorem mbc3LatchMachine : Obligations.Mbc3LatchMachine := by
  rintro s c r p u a d h hclock rfl
  have hkept := prestep_latchState r u s.hostHz s.now
  refine ⟨?arm, ?latch, ?stayIdle, ?disarm⟩
  case arm => exact writesAs_of_mbc3Command h hclock rfl rfl rfl
  case latch =>
    intro harmed
    exact writesAs_of_mbc3Command h hclock rfl (by rw [if_pos (hkept.trans harmed)]; rfl) rfl
  case stayIdle =>
    intro hidle
    have hnotArmed : (r.prestep u s.hostHz s.now).latchState ≠ 1#1 := by
      rw [hkept, hidle]
      decide
    exact writesAs_of_mbc3Command h hclock rfl (by rw [if_neg hnotArmed]; rfl) rfl
  case disarm => exact writesAs_of_mbc3Command h hclock rfl rfl rfl

end Sys2Proof.Machine
end

section
/-! PROOFS. The family of spec/43_rtc.md: the running advance, and the sticky overflow flag. -/

namespace Sys2Proof.Machine

/-! ## The day-high register after an advance -/

/-- Bit by bit: bit 0 is bit 8 of the day count, bit 7 is set past 511 days, and every other bit is kept. -/
theorem dhAfterDays_getElem (dh : Byte) (days : Nat) {i : Nat} (hi : i < 8) :
    (dhAfterDays dh days)[i] =
      if i = 0 then decide (days / 256 % 2 = 1) else dh[i] || decide (i = 7 ∧ 511 < days) := by
  have hbit : days / 256 % 2 = 0 ∨ days / 256 % 2 = 1 := Nat.mod_two_eq_zero_or_one _
  unfold dhAfterDays
  rcases hbit with h | h <;> by_cases hover : 511 < days <;> rw [h] <;> interval_cases i <;> simp [hover]

theorem dhHalt_dhAfterDays (dh : Byte) (days : Nat) : dhHalt (dhAfterDays dh days) = dhHalt dh := by
  simp [dhHalt, dhAfterDays_getElem]

theorem dhOverflow_dhAfterDays (dh : Byte) (days : Nat) :
    dhOverflow (dhAfterDays dh days) = (dhOverflow dh || decide (511 < days)) := by
  simp [dhOverflow, dhAfterDays_getElem]

theorem toNat_dhAfterDays_mod_two (dh : Byte) (days : Nat) :
    (dhAfterDays dh days).toNat % 2 = days / 256 % 2 := by
  have h : (dhAfterDays dh days).toNat % 2 = 1 ↔ days / 256 % 2 = 1 := by
    simpa [BitVec.getElem_eq_testBit_toNat, Nat.testBit_zero] using dhAfterDays_getElem dh days (i := 0) (by decide)
  omega

/-- The bits that no register has stay as they are. -/
theorem dhAfterDays_unused (dh : Byte) (days : Nat) : dhAfterDays dh days &&& 0x3E#8 = dh &&& 0x3E#8 := by
  ext i hi
  rw [BitVec.getElem_and, BitVec.getElem_and, dhAfterDays_getElem]
  interval_cases i <;> simp

/-! ## Adding seconds -/

theorem rtc_canonical_iff {r : Rtc} :
    r.canonical = true ↔ r.s.toNat ≤ 59 ∧ r.m.toNat ≤ 59 ∧ r.h.toNat ≤ 23 ∧ r.dh &&& 0x3E#8 = 0x00#8 := by
  simp only [Rtc.canonical, Bool.and_eq_true, decide_eq_true_eq, beq_iff_eq, and_assoc]

theorem rtc_seconds_eq (r : Rtc) :
    r.seconds = r.s.toNat + 60 * r.m.toNat + 3600 * r.h.toNat + 86400 * (r.dl.toNat + 256 * (r.dh.toNat % 2)) := by
  simp [Rtc.seconds, Rtc.dayCounter, field]

theorem addSeconds_canonical {r : Rtc} (hr : r.canonical = true) (n : Nat) : (r.addSeconds n).canonical = true := by
  obtain ⟨-, -, -, hdh⟩ := rtc_canonical_iff.1 hr
  refine rtc_canonical_iff.2 ⟨?_, ?_, ?_, (dhAfterDays_unused _ _).trans hdh⟩ <;>
    simp only [Rtc.addSeconds, BitVec.toNat_ofNat] <;> omega

/-- The digits of the sum: what carries out of the nine day bits is lost. -/
theorem addSeconds_seconds (r : Rtc) (n : Nat) : (r.addSeconds n).seconds = (r.seconds + n) % (512 * 86400) := by
  rw [rtc_seconds_eq (r.addSeconds n)]
  simp only [Rtc.addSeconds, BitVec.toNat_ofNat, toNat_dhAfterDays_mod_two]
  omega

theorem addSeconds_halt (r : Rtc) (n : Nat) : dhHalt (r.addSeconds n).dh = dhHalt r.dh :=
  dhHalt_dhAfterDays _ _

theorem addSeconds_overflow (r : Rtc) (n : Nat) :
    dhOverflow (r.addSeconds n).dh = (dhOverflow r.dh || decide (512 * 86400 ≤ r.seconds + n)) := by
  have hdays : 511 < (r.seconds + n) / 86400 ↔ 512 * 86400 ≤ r.seconds + n := by omega
  simp only [Rtc.addSeconds, dhOverflow_dhAfterDays, hdays]

/-! ## The advance -/

/-- A running advance, with its result written out (spec/43_rtc.md R203 to R205). -/
theorem advance_of_running {r : Mbc3} (hrun : dhHalt r.live.dh = false) (hz now : Nat) :
    r.advance hz now =
      { r with
        live := r.live.addSeconds ((now - r.lastUpdateTime) / hz)
        lastUpdateTime := r.lastUpdateTime + (now - r.lastUpdateTime) / hz * hz } := by
  simp [Mbc3.advance, hrun]

theorem advance_of_halted {r : Mbc3} (hhalt : dhHalt r.live.dh = true) (hz now : Nat) :
    r.advance hz now = { r with lastUpdateTime := now } := by
  simp [Mbc3.advance, hhalt]

/-- Settles O29: each clause is what adding seconds does to the registers. -/
theorem runningAdvanceAddsSeconds : Obligations.RunningAdvanceAddsSeconds := by
  rintro r q hz now n t - hcanonical hrun - rfl rfl rfl
  rw [advance_of_running hrun, ← rtc_seconds_eq, ← rtc_seconds_eq]
  refine ⟨addSeconds_canonical hcanonical _, addSeconds_seconds _ _, (addSeconds_halt _ _).trans hrun, ?_, rfl⟩
  simpa only [dhOverflow, Bool.or_eq_true, decide_eq_true_eq] using
    Bool.eq_iff_iff.1 (addSeconds_overflow r.live ((now - r.lastUpdateTime) / hz))

/-- Settles O30: the advance takes the quotient by the clock rate off the difference and leaves the remainder. -/
theorem advanceKeepsFraction : Obligations.AdvanceKeepsFraction := by
  rintro r q hz now hpos hrun hle rfl
  rw [advance_of_running hrun]
  have hsplit : (now - r.lastUpdateTime) / hz * hz + (now - r.lastUpdateTime) % hz = now - r.lastUpdateTime :=
    Nat.div_add_mod' _ _
  have hrest : (now - r.lastUpdateTime) % hz < hz := Nat.mod_lt _ hpos
  refine ⟨?_, ?_, ?_, Nat.add_mul_mod_self_right _ _ _⟩ <;> dsimp only <;> omega

/-! ## What a transaction does to the live registers -/

/-- The live registers after the transaction `i`, when its pre-step left them as `live`: an RTC write sets its own
register, and nothing else reaches them. -/
def liveAfter (i : Instr) (live : Rtc) : Rtc :=
  match i with
  | .wrRtcSMbc3 _ _ d => live.set .s (rtcWriteValue .s d)
  | .wrRtcMMbc3 _ _ d => live.set .m (rtcWriteValue .m d)
  | .wrRtcHMbc3 _ _ d => live.set .h (rtcWriteValue .h d)
  | .wrRtcDlMbc3 _ _ d => live.set .dl (rtcWriteValue .dl d)
  | .wrRtcDhMbc3 _ _ d => live.set .dh (rtcWriteValue .dh d)
  | _ => live

theorem liveAfter_of_read {i : Instr} (hi : i.isWrite = false) (live : Rtc) : liveAfter i live = live := by
  cases i with
  | wrRtcSMbc3 | wrRtcMMbc3 | wrRtcHMbc3 | wrRtcDlMbc3 | wrRtcDhMbc3 => cases hi
  | _ => rfl

/-- Only a write of `DH` reaches `DH`. -/
theorem liveAfter_dh {i : Instr} (hi : ∀ u a d, i ≠ .wrRtcDhMbc3 u a d) (live : Rtc) :
    (liveAfter i live).dh = live.dh := by
  cases i with
  | wrRtcDhMbc3 u a d => exact absurd rfl (hi u a d)
  | _ => rfl

theorem mbc3?_of_hasMbc1 {s : State} {c : Cart} {r : Mbc1} (h : s.HasMbc1 c r) : s.mbc3? = none := by
  obtain ⟨hcart, hctrl⟩ := h
  simp [State.mbc3?, hcart, hctrl]

@[simp] theorem mbc3?_mbc1Set (s : State) (c : Cart) (r : Mbc1) : (s.mbc1Set c r).mbc3? = none := rfl

@[simp] theorem mbc3?_mbc3Set (s : State) (c : Cart) (r : Mbc3) : (s.mbc3Set c r).mbc3? = some r := rfl

theorem mbc3?_setXram {s : State} {c : Cart} (h : s.cart = some c) (m : Memory) : (s.setXram c m).mbc3? = s.mbc3? := by
  simp [State.mbc3?, h]

/-- The live registers of an attached MBC3 across a write's effect. -/
theorem writeEffect_live {i : Instr} {s t : State} (hw : WriteEffect i s t) :
    t.mbc3?.map (·.live) = s.mbc3?.map fun r => liveAfter i r.live := by
  cases i with
  | wrRamenMbc1 | wrRombMbc1 | wrRambMbc1 | wrModeMbc1 =>
    obtain ⟨c, r, hr, rfl⟩ := hw
    simp [mbc3?_of_hasMbc1 hr]
  | wrRamenMbc3 | wrRombMbc3 | wrSelMbc3 | wrLatch0Mbc3 | wrLatchXMbc3 =>
    obtain ⟨c, r, hr, rfl⟩ := hw
    simp [mbc3?_of_hasMbc3 hr, liveAfter]
  | wrLatch1Mbc3 =>
    obtain ⟨c, r, hr, rfl⟩ := hw
    simp only [mbc3?_of_hasMbc3 hr, mbc3?_mbc3Set, liveAfter, Option.map_some]
    split_ifs <;> rfl
  | wrRtcSMbc3 | wrRtcMMbc3 | wrRtcHMbc3 | wrRtcDlMbc3 | wrRtcDhMbc3 =>
    obtain ⟨c, r, hr, -, rfl⟩ := hw
    simp [mbc3?_of_hasMbc3 hr, liveAfter]
  | wrXramBasic =>
    obtain ⟨c, hcart, -, ⟨-, rfl⟩ | ⟨-, rfl⟩⟩ := hw
    · rw [mbc3?_setXram hcart]
      rfl
    · rfl
  | wrXramMbc1 =>
    obtain ⟨c, r, ⟨hcart, -⟩, ⟨-, -, rfl⟩ | ⟨-, rfl⟩⟩ := hw
    · rw [mbc3?_setXram hcart]
      rfl
    · rfl
  | wrXramMbc3Ram =>
    obtain ⟨c, r, ⟨hcart, -⟩, -, ⟨-, rfl⟩ | ⟨off, -, -, rfl⟩⟩ := hw
    · rfl
    · rw [mbc3?_setXram hcart]
      rfl
  | wrWram0 | wrWramX | wrHram =>
    obtain ⟨-, rfl⟩ := hw
    rfl
  | wrSvbk =>
    subst hw
    split <;> rfl
  | _ =>
    subst hw
    rfl

/-- The live registers of an attached MBC3 across a transaction: the pre-step, then the transaction's own write. -/
theorem exec_live {i : Instr} {s t : State} {c c' : Cart} {r r' : Mbc3} (hs : s.HasMbc3 c r)
    (h : exec i s = .next t) (ht : t.HasMbc3 c' r') :
    r'.live = liveAfter i (r.prestep i.updateRtc s.hostHz s.now).live := by
  have hpre := prestepped_of_mbc3 hs i.updateRtc
  have ht := mbc3?_of_hasMbc3 ht
  cases hi : i.isWrite with
  | false =>
    obtain ⟨-, v, rfl⟩ := exec_read_next hi h
    have hsame : (s.prestepped i.updateRtc).mbc3? = some r' := ht
    rw [hpre, mbc3?_mbc3Set, Option.some_inj] at hsame
    rw [liveAfter_of_read hi, hsame]
  | true =>
    obtain ⟨-, s2, act, hw, rfl⟩ := exec_write_next hi h
    have hs2 : s2.mbc3? = some r' := ht
    have hlive := writeEffect_live hw
    rw [hs2, hpre] at hlive
    exact Option.some_inj.1 hlive

/-! ## The overflow flag -/

theorem prestep_keeps_overflow {r : Mbc3} (hset : dhOverflow r.live.dh = true) (u : Bool) (hz now : Nat) :
    dhOverflow (r.prestep u hz now).live.dh = true := by
  cases u with
  | false => exact hset
  | true =>
    cases hhalt : dhHalt r.live.dh with
    | true => rwa [Mbc3.prestep, if_pos rfl, advance_of_halted hhalt]
    | false =>
      rw [Mbc3.prestep, if_pos rfl, advance_of_running hhalt, addSeconds_overflow, hset, Bool.true_or]

/-- The mask of a `DH` write keeps bit 7. -/
theorem dhOverflow_rtcWriteValue (d : Byte) : dhOverflow (rtcWriteValue .dh d) = dhOverflow d := by
  simp [dhOverflow, rtcWriteValue, dhMask]

/-- Settles O34: the pre-step keeps a set flag, and after it only a write of `DH` reaches the flag, with bit 7 of its
byte. -/
theorem overflowIsSticky : Obligations.OverflowIsSticky := by
  intro i s t c c' r r' hs h ht
  rw [exec_live hs h ht]
  constructor
  · intro hset hnotDh
    rw [liveAfter_dh hnotDh]
    exact prestep_keeps_overflow hset _ _ _
  · rintro u a d rfl
    exact dhOverflow_rtcWriteValue d

end Sys2Proof.Machine
end

section
/-! PROOFS. The family of spec/44_memory_wram_hram_svbk.md: the work RAM reads. -/

namespace Sys2Proof.Machine

theorem hasMbc3_of_mbc3? {s : State} {r : Mbc3} (h : s.mbc3? = some r) : ∃ c, s.HasMbc3 c r := by
  unfold State.mbc3? at h
  split at h
  · cases h
  · rename_i c hcart
    split at h
    · rename_i hctrl
      cases h
      exact ⟨c, hcart, hctrl⟩
    · cases h

/-- The check on the clock sample is the premise of spec/43_rtc.md R209, whatever is attached. -/
theorem clockOk_of_clockFine_any {s : State} {u : Bool} (hclock : s.ClockFine u) : s.clockOk u = true := by
  cases hmbc3 : s.mbc3? with
  | none => exact clockOk_of_noMbc3 hmbc3 u
  | some r =>
    obtain ⟨c, h⟩ := hasMbc3_of_mbc3? hmbc3
    exact clockOk_of_clockFine h hclock

/-- Making a zero bank index into 1 is the maximum with 1 (spec/44_memory_wram_hram_svbk.md R221). -/
theorem wramBank_eq (cgb : Bool) (svbk : Byte) :
    wramBank cgb svbk = if cgb then max (svbk.toNat % 8) 1 else 1 := by
  have hindex : (svbkIndex svbk).toNat = svbk.toNat % 8 := BitVec.toNat_setWidth 3 svbk
  have hzero : svbkIndex svbk = 0#3 ↔ svbk.toNat % 8 = 0 := by rw [← hindex, BitVec.toNat_eq]; rfl
  cases cgb with
  | false => rfl
  | true =>
    simp only [wramBank, if_true, hzero, hindex]
    split_ifs <;> omega

theorem wramXOffset_eq (cgb : Bool) (svbk : Byte) {a : Addr} (hlow : 0xC000 ≤ a.toNat) :
    wramXOffset cgb svbk a = (if cgb then max (svbk.toNat % 8) 1 else 1) * 0x1000 + a.toNat % 0x1000 := by
  have hpage : field (rel a 0xC000) 11 0 = a.toNat % 0x1000 := by
    simp only [field, rel]
    omega
  rw [wramXOffset, wramBank_eq, hpage]

/-- The eight banks of CGB mode and the two of DMG mode fill the array. -/
theorem wramXOffset_lt (cgb : Bool) (svbk : Byte) {a : Addr} (hlow : 0xC000 ≤ a.toNat) :
    wramXOffset cgb svbk a < wramLen cgb := by
  rw [wramXOffset_eq cgb svbk hlow]
  unfold wramLen
  split_ifs <;> omega

/-- Bank 0 is in the array in both modes. -/
theorem rel_lt_wramLen (cgb : Bool) {a : Addr} (hhigh : a.toNat ≤ 0xCFFF) : rel a 0xC000 < wramLen cgb := by
  unfold rel wramLen
  split_ifs <;> omega

/-- A read transaction around a read of work RAM at an offset inside it; the pre-step keeps the array and the mode. -/
theorem readsAs_of_wramRead {i : Instr} {s : State} {u : Bool} {a : Addr} {off : State → Nat}
    (hclock : s.ClockFine u)
    (hexec : exec i s = busRead u a (fun t => readArray .wram (wramLen t.cgb) t.wram (off t)) s)
    (hoff : off (s.prestepped u) = off s) (hin : off s < wramLen s.cgb) :
    ReadsAs i s (s.prestepped u) a (Memory.read s.wram (off s)) := by
  refine readsAs_of_busRead hexec (clockOk_of_clockFine_any hclock) rfl (readArray_next.2 ?_)
  rw [hoff, prestepped_cgb, prestepped_wram]
  exact ⟨hin, rfl⟩

/-- Settles O42: each kind reads the array at its offset, which the pre-step keeps; in bank 0 that is the relative
address, above it the selected bank's byte. -/
theorem workRamReads : Obligations.WorkRamReads := by
  intro s u a hclock
  constructor
  · intro _ hhigh
    exact readsAs_of_wramRead (off := fun _ => rel a 0xC000) hclock rfl rfl (rel_lt_wramLen s.cgb hhigh)
  · intro hlow _
    have hlow : 0xC000 ≤ a.toNat := by omega
    rw [← wramXOffset_eq s.cgb s.svbk hlow]
    exact readsAs_of_wramRead (off := fun t => wramXOffset t.cgb t.svbk a) hclock rfl
      (by rw [prestepped_cgb, prestepped_svbk]) (wramXOffset_lt s.cgb s.svbk hlow)

end Sys2Proof.Machine
end

section
/-! PROOFS. The family of spec/45_bus_router_openbus_observer.md: the open addresses. -/

namespace Sys2Proof.Machine

/-- A read transaction around open bus reads 0xFF and leaves the block as the pre-step left it. -/
theorem readsAs_of_openRead {i : Instr} {s : State} {u : Bool} {a : Addr} (hclock : s.ClockFine u)
    (hexec : exec i s = busRead u a (fun _ => openRead) s) : ReadsAs i s (s.prestepped u) a 0xFF#8 := by
  have haccess : openRead = .next 0xFF#8 := rfl
  exact readsAs_of_busRead hexec (clockOk_of_clockFine_any hclock) rfl haccess

/-- A write transaction around a dropped write answers 0xFF and leaves the block as the pre-step left it. -/
theorem writesAs_of_droppedWrite {i : Instr} {s : State} {u : Bool} {a : Addr} {d : Byte} (hclock : s.ClockFine u)
    (hexec : exec i s = busWrite u a d droppedWrite s) : WritesAs i s (s.prestepped u) a d 0xFF#8 := by
  have haccess : droppedWrite (s.prestepped u) = .next (s.prestepped u, 0xFF#8) := rfl
  exact writesAs_of_busWrite hexec (clockOk_of_clockFine_any hclock) rfl haccess (prestepped_writeObserver s u)

/-- Settles O49: the access rule of the four kinds is open bus or a dropped write, at the open address and at
0xFFFF alike. -/
theorem openAddressesAnswer : Obligations.OpenAddressesAnswer := by
  intro s u a d hclock
  exact ⟨readsAs_of_openRead hclock rfl, writesAs_of_droppedWrite hclock rfl,
    readsAs_of_openRead hclock rfl, writesAs_of_droppedWrite hclock rfl⟩

end Sys2Proof.Machine
end

section
/-! PROOFS. The family of spec/30_encoding.md: decoding and encoding are inverse, and the opcode table as data. -/

namespace Sys2Proof

/-! ## What the operands and the view say -/

theorem inRange_iff {a : Addr} {lo hi : Nat} : inRange a lo hi = true ↔ lo ≤ a.toNat ∧ a.toNat ≤ hi := by
  simp [inRange]

/-- The open addresses are those of the open-bus route but 0xFFFF. -/
theorem isOpen_iff {a : Addr} : isOpen a = true ↔ route a = .openBus ∧ a.toNat ≠ 0xFFFF := by
  rw [route_eq_iff, Route.Covers]
  simp only [isOpen, Bool.or_eq_true, inRange_iff]
  omega

theorem isMbc3_iff {v : View} : isMbc3 v = true ↔ ∃ gate sel, v = .mbc3 gate sel := by
  cases v <;> simp [isMbc3]

theorem viewWindow_eq_some {v : View} {w : Window} :
    viewWindow v = some w ↔ ∃ gate sel, v = .mbc3 gate sel ∧ mbc3Window gate sel = w := by
  cases v <;> simp [viewWindow]

theorem isRtc_iff {o : Option Window} : isRtc o = true ↔ ∃ reg, o = some (.rtc reg) := by
  rcases o with _ | _ | _ | _ | _ <;> simp [isRtc]

/-- The latch bytes 0x00 and 0x01 have kinds of their own. -/
theorem wrLatchX_wf_iff {u : Bool} {a : Addr} {d : Byte} :
    (Instr.wrLatchXMbc3 u a d).wf = true ↔
      inRange a 0x6000 0x7FFF = true ∧ d.toNat ≠ 0x00 ∧ d.toNat ≠ 0x01 := by
  simp only [Instr.wf, Bool.and_eq_true, bne_iff_ne, ne_eq, ← BitVec.toNat_inj, and_assoc]
  rfl

/-! ## Decoding an encoded kind -/

/-- The decoder sees the fields of the kind, and of a read not the data byte. -/
theorem decode_encode (v : View) (i : Instr) :
    decode v (encode i) =
      if i.isWrite then decodeWrite v i.updateRtc i.addr i.data else decodeRead v i.updateRtc i.addr := by
  simp [decode, encode]

/-! The windows by address range, and the address bits that divide them. -/

theorem route_rom {a : Addr} {lo hi : Nat} (h : inRange a lo hi = true) (hhi : hi ≤ 0x7FFF) : route a = .rom :=
  (route_eq_iff a .rom).2 ((inRange_iff.1 h).2.trans hhi)

theorem route_xram {a : Addr} (h : inRange a 0xA000 0xBFFF = true) : route a = .xram :=
  (route_eq_iff a .xram).2 (inRange_iff.1 h)

theorem route_wram {a : Addr} {lo hi : Nat} (h : inRange a lo hi = true) (hlo : 0xC000 ≤ lo) (hhi : hi ≤ 0xDFFF) :
    route a = .wram :=
  (route_eq_iff a .wram).2 ⟨hlo.trans (inRange_iff.1 h).1, (inRange_iff.1 h).2.trans hhi⟩

theorem route_hram {a : Addr} (h : inRange a 0xFF80 0xFFFE = true) : route a = .hram :=
  (route_eq_iff a .hram).2 (inRange_iff.1 h)

/-- The bits of an address that number aligned blocks are those of the block it lies in. -/
theorem field_of_inRange {a : Addr} {lo hi high low : Nat} (h : inRange a lo hi = true)
    (hblock : lo / 2 ^ low = hi / 2 ^ low) : field a.toNat high low = field lo high low := by
  obtain ⟨hlo, hhi⟩ := inRange_iff.1 h
  have hsame : a.toNat / 2 ^ low = lo / 2 ^ low :=
    le_antisymm ((Nat.div_le_div_right hhi).trans hblock.ge) (Nat.div_le_div_right hlo)
  rw [field, hsame, field]

/-! One equation for each window of the decoder. -/

section
variable {v : View} {u : Bool} {a : Addr} {d : Byte}

theorem decodeRead_rom (h : route a = .rom) : decodeRead v u a = decodeRomRead v u a := by rw [decodeRead, h]

theorem decodeRead_xram (h : route a = .xram) : decodeRead v u a = decodeXramRead v u a := by rw [decodeRead, h]

theorem decodeRead_wram (h : route a = .wram) :
    decodeRead v u a = if field a.toNat 12 12 = 0 then .rdWram0 u a else .rdWramX u a := by rw [decodeRead, h]

theorem decodeRead_hram (h : route a = .hram) : decodeRead v u a = .rdHram u a := by rw [decodeRead, h]

theorem decodeRead_openBus (h : route a = .openBus) :
    decodeRead v u a = if a.toNat = 0xFFFF then .rdFfff u else .rdOpen u a := by rw [decodeRead, h]

theorem decodeWrite_rom (h : route a = .rom) : decodeWrite v u a d = decodeRomWrite v u a d := by
  rw [decodeWrite, h]

theorem decodeWrite_xram (h : route a = .xram) : decodeWrite v u a d = decodeXramWrite v u a d := by
  rw [decodeWrite, h]

theorem decodeWrite_wram (h : route a = .wram) :
    decodeWrite v u a d = if field a.toNat 12 12 = 0 then .wrWram0 u a d else .wrWramX u a d := by
  rw [decodeWrite, h]

theorem decodeWrite_hram (h : route a = .hram) : decodeWrite v u a d = .wrHram u a d := by rw [decodeWrite, h]

theorem decodeWrite_openBus (h : route a = .openBus) :
    decodeWrite v u a d = if a.toNat = 0xFFFF then .wrFfff u d else .wrOpen u a d := by rw [decodeWrite, h]

end

/-- Settles O1: the word holds the operands; the operand range says which window of the decoder they reach, and the
view which of its kinds. -/
theorem decodeOfEncode : Obligations.DecodeOfEncode := by
  intro v i hwf happ
  rw [decode_encode]
  cases i with
  | rdRomNocart u a | rdRomBasic u a =>
    obtain rfl := beq_iff_eq.1 happ
    exact decodeRead_rom (route_rom hwf (by decide))
  | wrRomNocart u a d | wrRomBasic u a d =>
    obtain rfl := beq_iff_eq.1 happ
    exact decodeWrite_rom (route_rom hwf (by decide))
  | rdRom0Mbc1 u a | rdRomXMbc1 u a =>
    obtain rfl := beq_iff_eq.1 happ
    refine (decodeRead_rom (route_rom hwf (by decide))).trans ?_
    simp only [decodeRomRead, field_of_inRange (high := 14) (low := 14) hwf rfl]
    rfl
  | rdRom0Mbc3 u a | rdRomXMbc3 u a =>
    obtain ⟨gate, sel, rfl⟩ := isMbc3_iff.1 happ
    refine (decodeRead_rom (route_rom hwf (by decide))).trans ?_
    simp only [decodeRomRead, field_of_inRange (high := 14) (low := 14) hwf rfl]
    rfl
  | wrRamenMbc1 u a d | wrRombMbc1 u a d | wrRambMbc1 u a d | wrModeMbc1 u a d =>
    obtain rfl := beq_iff_eq.1 happ
    refine (decodeWrite_rom (route_rom hwf (by decide))).trans ?_
    simp only [decodeRomWrite, decodeMbc1Command, field_of_inRange (high := 14) (low := 13) hwf rfl]
    rfl
  | wrRamenMbc3 u a d | wrRombMbc3 u a d | wrSelMbc3 u a d | wrLatch0Mbc3 u a | wrLatch1Mbc3 u a =>
    obtain ⟨gate, sel, rfl⟩ := isMbc3_iff.1 happ
    refine (decodeWrite_rom (route_rom hwf (by decide))).trans ?_
    simp only [decodeRomWrite, decodeMbc3Command, field_of_inRange (high := 14) (low := 13) hwf rfl]
    rfl
  | wrLatchXMbc3 u a d =>
    obtain ⟨gate, sel, rfl⟩ := isMbc3_iff.1 happ
    obtain ⟨hrange, hne0, hne1⟩ := wrLatchX_wf_iff.1 hwf
    refine (decodeWrite_rom (route_rom hrange (by decide))).trans ?_
    simp only [decodeRomWrite, decodeMbc3Command, field_of_inRange (high := 14) (low := 13) hrange rfl]
    exact (if_neg hne0).trans (if_neg hne1)
  | rdXramNocart u a | rdXramBasic u a | rdXramMbc1 u a =>
    obtain rfl := beq_iff_eq.1 happ
    exact decodeRead_xram (route_xram hwf)
  | wrXramNocart u a d | wrXramBasic u a d | wrXramMbc1 u a d =>
    obtain rfl := beq_iff_eq.1 happ
    exact decodeWrite_xram (route_xram hwf)
  | rdXramMbc3Off u a | rdXramMbc3Ram u a | rdXramMbc3Rsv u a =>
    obtain ⟨gate, sel, rfl, hw⟩ := viewWindow_eq_some.1 (beq_iff_eq.1 happ)
    refine (decodeRead_xram (route_xram hwf)).trans ?_
    simp only [decodeXramRead, hw]
    rfl
  | rdRtcMbc3 u a =>
    obtain ⟨reg, hreg⟩ := isRtc_iff.1 happ
    obtain ⟨gate, sel, rfl, hw⟩ := viewWindow_eq_some.1 hreg
    refine (decodeRead_xram (route_xram hwf)).trans ?_
    simp only [decodeXramRead, hw]
    rfl
  | wrXramMbc3Off u a d | wrXramMbc3Ram u a d | wrXramMbc3Rsv u a d | wrRtcSMbc3 u a d | wrRtcMMbc3 u a d
  | wrRtcHMbc3 u a d | wrRtcDlMbc3 u a d | wrRtcDhMbc3 u a d =>
    obtain ⟨gate, sel, rfl, hw⟩ := viewWindow_eq_some.1 (beq_iff_eq.1 happ)
    refine (decodeWrite_xram (route_xram hwf)).trans ?_
    simp only [decodeXramWrite, hw]
    rfl
  | rdWram0 u a | rdWramX u a =>
    refine (decodeRead_wram (route_wram hwf (by decide) (by decide))).trans ?_
    rw [field_of_inRange hwf rfl]
    rfl
  | wrWram0 u a d | wrWramX u a d =>
    refine (decodeWrite_wram (route_wram hwf (by decide) (by decide))).trans ?_
    rw [field_of_inRange hwf rfl]
    rfl
  | rdHram u a => exact decodeRead_hram (route_hram hwf)
  | wrHram u a d => exact decodeWrite_hram (route_hram hwf)
  | rdFfff u | rdSvbk u | wrFfff u d | wrSvbk u d => rfl
  | rdOpen u a =>
    obtain ⟨hroute, hne⟩ := isOpen_iff.1 hwf
    exact (decodeRead_openBus hroute).trans (if_neg hne)
  | wrOpen u a d =>
    obtain ⟨hroute, hne⟩ := isOpen_iff.1 hwf
    exact (decodeWrite_openBus hroute).trans (if_neg hne)

/-! ## Encoding a decoded kind -/

/-- The kind is well-formed, applies in the view, and carries these fields. -/
structure Instr.Carries (i : Instr) (v : View) (u w : Bool) (a : Addr) (d : Byte) : Prop where
  wf : i.wf = true
  applies : i.applies v = true
  updateRtc : i.updateRtc = u
  isWrite : i.isWrite = w
  addr : i.addr = a
  data : i.data = d

section
variable (v : View) (u : Bool) {a : Addr} (d : Byte)

/-- Bit 14 says which half of the ROM window the address is in. -/
theorem romHalf_cases (h : route a = .rom) :
    (field a.toNat 14 14 = 0 ∧ inRange a 0x0000 0x3FFF = true) ∨
      (field a.toNat 14 14 = 1 ∧ inRange a 0x4000 0x7FFF = true) := by
  have h : a.toNat ≤ 0x7FFF := (route_eq_iff a .rom).1 h
  have hfield : field a.toNat 14 14 = a.toNat / 0x4000 % 2 := rfl
  simp only [inRange_iff, hfield]
  omega

/-- Bits 14 and 13 say which quarter of the ROM window the address is in. -/
theorem romQuarter_cases (h : route a = .rom) :
    (field a.toNat 14 13 = 0 ∧ inRange a 0x0000 0x1FFF = true) ∨
      (field a.toNat 14 13 = 1 ∧ inRange a 0x2000 0x3FFF = true) ∨
      (field a.toNat 14 13 = 2 ∧ inRange a 0x4000 0x5FFF = true) ∨
      (field a.toNat 14 13 = 3 ∧ inRange a 0x6000 0x7FFF = true) := by
  have h : a.toNat ≤ 0x7FFF := (route_eq_iff a .rom).1 h
  have hfield : field a.toNat 14 13 = a.toNat / 0x2000 % 4 := rfl
  simp only [inRange_iff, hfield]
  omega

/-- Bit 12 says which half of the work RAM window the address is in. -/
theorem wramHalf_cases (h : route a = .wram) :
    (field a.toNat 12 12 = 0 ∧ inRange a 0xC000 0xCFFF = true) ∨
      (field a.toNat 12 12 = 1 ∧ inRange a 0xD000 0xDFFF = true) := by
  have h : 0xC000 ≤ a.toNat ∧ a.toNat ≤ 0xDFFF := (route_eq_iff a .wram).1 h
  have hfield : field a.toNat 12 12 = a.toNat / 0x1000 % 2 := rfl
  simp only [inRange_iff, hfield]
  omega

theorem inRange_of_rom (h : route a = .rom) : inRange a 0x0000 0x7FFF = true :=
  inRange_iff.2 ⟨Nat.zero_le _, (route_eq_iff a .rom).1 h⟩

theorem inRange_of_xram (h : route a = .xram) : inRange a 0xA000 0xBFFF = true :=
  inRange_iff.2 ((route_eq_iff a .xram).1 h)

theorem inRange_of_hram (h : route a = .hram) : inRange a 0xFF80 0xFFFE = true :=
  inRange_iff.2 ((route_eq_iff a .hram).1 h)

theorem decodeRomRead_carries (h : route a = .rom) : (decodeRomRead v u a).Carries v u false a 0x00#8 := by
  cases v with
  | noCart | basic => exact ⟨inRange_of_rom h, rfl, rfl, rfl, rfl, rfl⟩
  | mbc1 | mbc3 =>
    obtain ⟨hhalf, hrange⟩ | ⟨hhalf, hrange⟩ := romHalf_cases h <;> simp only [decodeRomRead, hhalf] <;>
      exact ⟨hrange, rfl, rfl, rfl, rfl, rfl⟩

theorem decodeXramRead_carries (h : route a = .xram) : (decodeXramRead v u a).Carries v u false a 0x00#8 := by
  have hrange := inRange_of_xram h
  cases v with
  | noCart | basic | mbc1 => exact ⟨hrange, rfl, rfl, rfl, rfl, rfl⟩
  | mbc3 gate sel =>
    cases hw : mbc3Window gate sel <;> simp only [decodeXramRead, hw] <;>
      exact ⟨hrange, by simp [Instr.applies, viewWindow, isRtc, hw], rfl, rfl, rfl, rfl⟩

theorem decodeRead_carries (a : Addr) : (decodeRead v u a).Carries v u false a 0x00#8 := by
  cases h : route a with
  | rom => exact decodeRead_rom h ▸ decodeRomRead_carries v u h
  | xram => exact decodeRead_xram h ▸ decodeXramRead_carries v u h
  | wram =>
    rw [decodeRead_wram h]
    obtain ⟨hhalf, hrange⟩ | ⟨hhalf, hrange⟩ := wramHalf_cases h <;> rw [hhalf] <;>
      exact ⟨hrange, rfl, rfl, rfl, rfl, rfl⟩
  | hram => exact decodeRead_hram h ▸ ⟨inRange_of_hram h, rfl, rfl, rfl, rfl, rfl⟩
  | svbk =>
    obtain rfl : a = 0xFF70#16 := BitVec.eq_of_toNat_eq ((route_eq_iff a .svbk).1 h)
    exact ⟨rfl, rfl, rfl, rfl, rfl, rfl⟩
  | openBus =>
    rw [decodeRead_openBus h]
    split_ifs with hffff
    · obtain rfl : a = 0xFFFF#16 := BitVec.eq_of_toNat_eq hffff
      exact ⟨rfl, rfl, rfl, rfl, rfl, rfl⟩
    · exact ⟨isOpen_iff.2 ⟨h, hffff⟩, rfl, rfl, rfl, rfl, rfl⟩

theorem decodeMbc1Command_carries (h : route a = .rom) :
    (decodeMbc1Command u a d).Carries .mbc1 u true a d := by
  rw [decodeMbc1Command]
  obtain ⟨hq, hrange⟩ | ⟨hq, hrange⟩ | ⟨hq, hrange⟩ | ⟨hq, hrange⟩ := romQuarter_cases h <;> rw [hq] <;>
    exact ⟨hrange, rfl, rfl, rfl, rfl, rfl⟩

theorem decodeMbc3Command_carries (gate : Bool) (sel : BitVec 4) (h : route a = .rom) :
    (decodeMbc3Command u a d).Carries (.mbc3 gate sel) u true a d := by
  rw [decodeMbc3Command]
  obtain ⟨hq, hrange⟩ | ⟨hq, hrange⟩ | ⟨hq, hrange⟩ | ⟨hq, hrange⟩ := romQuarter_cases h <;> rw [hq]
  case inr.inr.inr =>
    split_ifs with hzero hone
    · exact ⟨hrange, rfl, rfl, rfl, rfl, (BitVec.eq_of_toNat_eq hzero).symm⟩
    · exact ⟨hrange, rfl, rfl, rfl, rfl, (BitVec.eq_of_toNat_eq hone).symm⟩
    · exact ⟨wrLatchX_wf_iff.2 ⟨hrange, hzero, hone⟩, rfl, rfl, rfl, rfl, rfl⟩
  all_goals exact ⟨hrange, rfl, rfl, rfl, rfl, rfl⟩

theorem decodeRomWrite_carries (h : route a = .rom) : (decodeRomWrite v u a d).Carries v u true a d := by
  cases v with
  | noCart | basic => exact ⟨inRange_of_rom h, rfl, rfl, rfl, rfl, rfl⟩
  | mbc1 => exact decodeMbc1Command_carries u d h
  | mbc3 gate sel => exact decodeMbc3Command_carries u d gate sel h

theorem decodeXramWrite_carries (h : route a = .xram) : (decodeXramWrite v u a d).Carries v u true a d := by
  have hrange := inRange_of_xram h
  cases v with
  | noCart | basic | mbc1 => exact ⟨hrange, rfl, rfl, rfl, rfl, rfl⟩
  | mbc3 gate sel =>
    rcases hw : mbc3Window gate sel with _ | _ | ⟨_ | _ | _ | _ | _⟩ | _ <;> simp only [decodeXramWrite, hw] <;>
      exact ⟨hrange, by simp [Instr.applies, viewWindow, hw], rfl, rfl, rfl, rfl⟩

theorem decodeWrite_carries (a : Addr) : (decodeWrite v u a d).Carries v u true a d := by
  cases h : route a with
  | rom => exact decodeWrite_rom h ▸ decodeRomWrite_carries v u d h
  | xram => exact decodeWrite_xram h ▸ decodeXramWrite_carries v u d h
  | wram =>
    rw [decodeWrite_wram h]
    obtain ⟨hhalf, hrange⟩ | ⟨hhalf, hrange⟩ := wramHalf_cases h <;> rw [hhalf] <;>
      exact ⟨hrange, rfl, rfl, rfl, rfl, rfl⟩
  | hram => exact decodeWrite_hram h ▸ ⟨inRange_of_hram h, rfl, rfl, rfl, rfl, rfl⟩
  | svbk =>
    obtain rfl : a = 0xFF70#16 := BitVec.eq_of_toNat_eq ((route_eq_iff a .svbk).1 h)
    exact ⟨rfl, rfl, rfl, rfl, rfl, rfl⟩
  | openBus =>
    rw [decodeWrite_openBus h]
    split_ifs with hffff
    · obtain rfl : a = 0xFFFF#16 := BitVec.eq_of_toNat_eq hffff
      exact ⟨rfl, rfl, rfl, rfl, rfl, rfl⟩
    · exact ⟨isOpen_iff.2 ⟨h, hffff⟩, rfl, rfl, rfl, rfl, rfl⟩

/-- Every word decodes to a well-formed kind that applies, with the word's own fields but for a read's data. -/
theorem decode_carries (t : TWord) : (decode v t).Carries v t.u t.w t.a (if t.w then t.d else 0x00#8) := by
  rw [decode]
  cases t.w with
  | false => exact decodeRead_carries v t.u t.a
  | true => exact decodeWrite_carries v t.u t.d t.a

end

/-- Settles O2: the decoded kind carries the fields of the word, and encoding packs the fields of the kind. -/
theorem encodeOfDecode : Obligations.EncodeOfDecode := by
  intro v t
  have h := decode_carries v t
  exact ⟨h.wf, h.applies, by rw [encode, h.updateRtc, h.isWrite, h.addr, h.data]⟩

/-- Settles O4: the decoder evaluated on each word. -/
theorem specWordsDecode : Obligations.SpecWordsDecode := by
  unfold Obligations.SpecWordsDecode
  decide

end Sys2Proof
end

section
/-! PROOFS. The family of spec/30_encoding.md section 7: the opcode table, row by row. -/

namespace Sys2Proof

/-- Bits 24 to 8 of a word are its direction and its address. -/
theorem field_busBits (t : TWord) : field t.toNat 24 8 = t.w.toNat * 0x10000 + t.a.toNat := by
  have ht := t.isLt
  simp only [w_toNat, TWord.a, field, BitVec.toNat_ofNat]
  omega

/-- A field of a field's top bits. -/
theorem field_top (n : Nat) {lo mid hi : Nat} (hlo : lo ≤ mid) (hmid : mid ≤ hi + 1) :
    field n hi mid = field n hi lo / 2 ^ (mid - lo) := by
  have hw : hi + 1 - lo = (mid - lo) + (hi + 1 - mid) := by omega
  have hm : 2 ^ mid = 2 ^ lo * 2 ^ (mid - lo) := by rw [← pow_add, Nat.add_sub_cancel' hlo]
  rw [field, field, hw, pow_add, Nat.mod_mul_right_div_self, Nat.div_div_eq_div_mul, ← hm]

/-- A pattern on the top of these bits. -/
theorem field_busTop (t : TWord) {lo : Nat} (hlo : 8 ≤ lo) (hhi : lo ≤ 25) :
    field t.toNat 24 lo = (t.w.toNat * 0x10000 + t.a.toNat) / 2 ^ (lo - 8) := by
  rw [← field_busBits, field_top t.toNat hlo hhi]

theorem field_data (t : TWord) : field t.toNat 7 0 = t.d.toNat := by
  simp [TWord.d, field]

/-! A row's condition on the view is the one its kind applies under. -/

section
variable (m : String) (fixed : List (Nat × Nat × Nat)) (v : View)

@[simp] theorem appliesTo_any : (⟨m, fixed, .any, none, [(0, 15)]⟩ : TableRow).appliesTo v = true := by
  cases v with
  | mbc3 gate sel => simp [TableRow.appliesTo]; omega
  | _ => rfl

@[simp] theorem appliesTo_noCart :
    (⟨m, fixed, .noCart, none, [(0, 15)]⟩ : TableRow).appliesTo v = decide (v = .noCart) := by
  cases v <;> rfl

@[simp] theorem appliesTo_basic :
    (⟨m, fixed, .basic, none, [(0, 15)]⟩ : TableRow).appliesTo v = decide (v = .basic) := by
  cases v <;> rfl

@[simp] theorem appliesTo_mbc1 :
    (⟨m, fixed, .mbc1, none, [(0, 15)]⟩ : TableRow).appliesTo v = decide (v = .mbc1) := by
  cases v <;> rfl

@[simp] theorem appliesTo_mbc3 : (⟨m, fixed, .mbc3, none, [(0, 15)]⟩ : TableRow).appliesTo v = isMbc3 v := by
  cases v with
  | mbc3 gate sel => simp [TableRow.appliesTo, isMbc3]; omega
  | _ => rfl

/-- A row of the MBC3 window needs the gate and the selector that show this window. -/
theorem appliesTo_window {g : Bool} {ss : List (Nat × Nat)} {p : Option Window → Bool} (hnone : p none = false)
    (hshown : ∀ gate sel,
      (⟨"", [], .mbc3, some g, ss⟩ : TableRow).appliesTo (.mbc3 gate sel) = p (some (mbc3Window gate sel))) :
    (⟨m, fixed, .mbc3, some g, ss⟩ : TableRow).appliesTo v = p (viewWindow v) := by
  cases v with
  | mbc3 gate sel => exact hshown gate sel
  | _ => exact hnone.symm

@[simp] theorem appliesTo_off :
    (⟨m, fixed, .mbc3, some false, [(0, 15)]⟩ : TableRow).appliesTo v = decide (viewWindow v = some .off) :=
  appliesTo_window m fixed v (p := fun o => decide (o = some .off)) rfl (by decide)

@[simp] theorem appliesTo_ram :
    (⟨m, fixed, .mbc3, some true, [(0, 3)]⟩ : TableRow).appliesTo v = decide (viewWindow v = some .ram) :=
  appliesTo_window m fixed v (p := fun o => decide (o = some .ram)) rfl (by decide)

@[simp] theorem appliesTo_rtc :
    (⟨m, fixed, .mbc3, some true, [(8, 12)]⟩ : TableRow).appliesTo v = isRtc (viewWindow v) :=
  appliesTo_window m fixed v (p := isRtc) rfl (by decide)

@[simp] theorem appliesTo_s :
    (⟨m, fixed, .mbc3, some true, [(8, 8)]⟩ : TableRow).appliesTo v = decide (viewWindow v = some (.rtc .s)) :=
  appliesTo_window m fixed v (p := fun o => decide (o = some (.rtc .s))) rfl (by decide)

@[simp] theorem appliesTo_m :
    (⟨m, fixed, .mbc3, some true, [(9, 9)]⟩ : TableRow).appliesTo v = decide (viewWindow v = some (.rtc .m)) :=
  appliesTo_window m fixed v (p := fun o => decide (o = some (.rtc .m))) rfl (by decide)

@[simp] theorem appliesTo_h :
    (⟨m, fixed, .mbc3, some true, [(10, 10)]⟩ : TableRow).appliesTo v = decide (viewWindow v = some (.rtc .h)) :=
  appliesTo_window m fixed v (p := fun o => decide (o = some (.rtc .h))) rfl (by decide)

@[simp] theorem appliesTo_dl :
    (⟨m, fixed, .mbc3, some true, [(11, 11)]⟩ : TableRow).appliesTo v = decide (viewWindow v = some (.rtc .dl)) :=
  appliesTo_window m fixed v (p := fun o => decide (o = some (.rtc .dl))) rfl (by decide)

@[simp] theorem appliesTo_dh :
    (⟨m, fixed, .mbc3, some true, [(12, 12)]⟩ : TableRow).appliesTo v = decide (viewWindow v = some (.rtc .dh)) :=
  appliesTo_window m fixed v (p := fun o => decide (o = some (.rtc .dh))) rfl (by decide)

@[simp] theorem appliesTo_rsv :
    (⟨m, fixed, .mbc3, some true, [(4, 7), (13, 15)]⟩ : TableRow).appliesTo v = decide (viewWindow v = some .rsv) :=
  appliesTo_window m fixed v (p := fun o => decide (o = some .rsv)) rfl (by decide)

end

section
variable (m : String) (fixed : List (Nat × Nat × Nat)) (var : TableVariant) (g : Option Bool) (ss : List (Nat × Nat))
  (t : TWord)

@[simp] theorem matchesWord_nil : (⟨m, [], var, g, ss⟩ : TableRow).matchesWord t = true := rfl

@[simp] theorem matchesWord_cons (hi lo k : Nat) :
    (⟨m, (hi, lo, k) :: fixed, var, g, ss⟩ : TableRow).matchesWord t =
      (decide (field t.toNat hi lo = k) && (⟨m, fixed, var, g, ss⟩ : TableRow).matchesWord t) := rfl

end

/-- The mnemonic of the first row whose conditions hold and whose pattern matches. -/
def firstRow (v : View) (t : TWord) (rows : List TableRow) : Option String :=
  (rows.find? fun r => r.appliesTo v && r.matchesWord t).map (·.mnemonic)

section
variable {v : View} {t : TWord}

theorem tableKind_eq_firstRow : tableKind v t = firstRow v t opcodeTable := rfl

@[simp] theorem firstRow_nil : firstRow v t [] = none := rfl

@[simp] theorem firstRow_cons (r : TableRow) (rows : List TableRow) :
    firstRow v t (r :: rows) = bif r.appliesTo v && r.matchesWord t then some r.mnemonic else firstRow v t rows := by
  rw [firstRow, List.find?_cons]
  cases r.appliesTo v && r.matchesWord t <;> rfl

theorem firstRow_append (rows rows' : List TableRow) :
    firstRow v t (rows ++ rows') = (firstRow v t rows).or (firstRow v t rows') := by
  simp [firstRow, Option.map_or]

/-- The read rows ask for the direction bit clear. -/
theorem firstRow_reads_of_write (hw : t.w = true) : firstRow v t (tableReads0 ++ tableReads1) = none := by
  simp (disch := omega) [tableReads0, tableReads1, field_busTop, hw, decide_eq_false]

theorem tableKind_of_write (hw : t.w = true) :
    tableKind v t = firstRow v t (tableWrites0 ++ tableWrites1 ++ tableWrites2) := by
  have hblocks : opcodeTable = (tableReads0 ++ tableReads1) ++ (tableWrites0 ++ tableWrites1 ++ tableWrites2) := by
    simp [opcodeTable]
  rw [tableKind_eq_firstRow, hblocks, firstRow_append, firstRow_reads_of_write hw, Option.none_or]

/-- The rows of the cartridge windows ask for an address there. -/
theorem tableKind_of_read_high (hw : t.w = false) (hrom : 0x8000 ≤ t.a.toNat)
    (hxram : t.a.toNat < 0xA000 ∨ 0xC000 ≤ t.a.toNat) :
    tableKind v t = firstRow v t (tableReads1 ++ tableWrites0 ++ tableWrites1 ++ tableWrites2) := by
  have hnone : firstRow v t tableReads0 = none := by
    simp (disch := omega) [tableReads0, field_busTop, hw, decide_eq_false]
  simp only [tableKind_eq_firstRow, opcodeTable, List.append_assoc]
  rw [firstRow_append, hnone, Option.none_or]

theorem tableKind_of_write_high (hw : t.w = true) (hrom : 0x8000 ≤ t.a.toNat)
    (hxram : t.a.toNat < 0xA000 ∨ 0xC000 ≤ t.a.toNat) : tableKind v t = firstRow v t tableWrites2 := by
  have hnone : firstRow v t (tableWrites0 ++ tableWrites1) = none := by
    simp (disch := omega) [tableWrites0, tableWrites1, field_busTop, hw, decide_eq_false]
  rw [tableKind_of_write hw, firstRow_append, hnone, Option.none_or]

end

/-- The table gives the mnemonic of a well-formed kind that applies, on every word with the fields of the kind: the
rows before its own ask for another address block or another view. -/
theorem tableKind_of_fields {v : View} {t : TWord} {i : Instr} (hwf : i.wf = true) (happ : i.applies v = true)
    (hw : t.w = i.isWrite) (ha : t.a = i.addr) (hd : i.isWrite = true → t.d = i.data) :
    tableKind v t = some i.mnemonic := by
  cases i with
  | rdRomNocart u a | rdRomBasic u a | rdRom0Mbc1 u a | rdRomXMbc1 u a | rdXramNocart u a | rdXramBasic u a
  | rdXramMbc1 u a =>
    obtain rfl := beq_iff_eq.1 happ
    obtain ⟨hlo, hhi⟩ := inRange_iff.1 hwf
    simp (disch := omega) [tableKind_eq_firstRow, opcodeTable, tableReads0, field_busTop, hw, ha, Instr.isWrite,
      Instr.addr, decide_eq_false, decide_eq_true, isMbc3, Instr.mnemonic]
  | rdRom0Mbc3 u a | rdRomXMbc3 u a =>
    obtain ⟨gate, sel, rfl⟩ := isMbc3_iff.1 happ
    obtain ⟨hlo, hhi⟩ := inRange_iff.1 hwf
    simp (disch := omega) [tableKind_eq_firstRow, opcodeTable, tableReads0, field_busTop, hw, ha, Instr.isWrite,
      Instr.addr, decide_eq_false, decide_eq_true, isMbc3, Instr.mnemonic]
  | rdXramMbc3Off u a | rdXramMbc3Ram u a | rdXramMbc3Rsv u a =>
    obtain ⟨gate, sel, rfl, hshown⟩ := viewWindow_eq_some.1 (beq_iff_eq.1 happ)
    obtain ⟨hlo, hhi⟩ := inRange_iff.1 hwf
    simp (disch := omega) [tableKind_eq_firstRow, opcodeTable, tableReads0, field_busTop, hw, ha, Instr.isWrite,
      Instr.addr, decide_eq_false, decide_eq_true, viewWindow, isRtc, hshown, Instr.mnemonic]
  | rdRtcMbc3 u a =>
    obtain ⟨reg, hreg⟩ := isRtc_iff.1 happ
    obtain ⟨gate, sel, rfl, hshown⟩ := viewWindow_eq_some.1 hreg
    obtain ⟨hlo, hhi⟩ := inRange_iff.1 hwf
    simp (disch := omega) [tableKind_eq_firstRow, opcodeTable, tableReads0, field_busTop, hw, ha, Instr.isWrite,
      Instr.addr, decide_eq_false, decide_eq_true, viewWindow, isRtc, hshown, Instr.mnemonic]
  | rdWram0 u a | rdWramX u a | rdHram u a =>
    obtain rfl : t.a = a := ha
    obtain ⟨hlo, hhi⟩ := inRange_iff.1 hwf
    rw [tableKind_of_read_high hw (by omega) (by omega)]
    simp (disch := omega) [tableReads1, field_busTop, hw, Instr.isWrite, decide_eq_false, decide_eq_true,
      Instr.mnemonic]
  | rdFfff u | rdSvbk u =>
    rw [tableKind_of_read_high hw (by simp [ha, Instr.addr]) (by simp [ha, Instr.addr])]
    simp [tableReads1, field_busTop, hw, ha, Instr.isWrite, Instr.addr, Instr.mnemonic]
  | rdOpen u a =>
    obtain rfl : t.a = a := ha
    simp only [Instr.wf, isOpen, Bool.or_eq_true, inRange_iff] at hwf
    rw [tableKind_of_read_high hw (by omega) (by omega)]
    simp (disch := omega) [tableReads1, field_busTop, hw, Instr.isWrite, decide_eq_false, decide_eq_true,
      Instr.mnemonic]
  | wrRomNocart u a d | wrRomBasic u a d | wrRamenMbc1 u a d | wrRombMbc1 u a d | wrRambMbc1 u a d
  | wrModeMbc1 u a d | wrXramNocart u a d | wrXramBasic u a d | wrXramMbc1 u a d =>
    obtain rfl := beq_iff_eq.1 happ
    obtain ⟨hlo, hhi⟩ := inRange_iff.1 hwf
    simp (disch := omega) [tableKind_of_write hw, tableWrites0, tableWrites1, field_busTop, hw, ha, Instr.isWrite,
      Instr.addr, decide_eq_false, decide_eq_true, isMbc3, Instr.mnemonic]
  | wrRamenMbc3 u a d | wrRombMbc3 u a d | wrSelMbc3 u a d =>
    obtain ⟨gate, sel, rfl⟩ := isMbc3_iff.1 happ
    obtain ⟨hlo, hhi⟩ := inRange_iff.1 hwf
    simp (disch := omega) [tableKind_of_write hw, tableWrites0, field_busTop, hw, ha, Instr.isWrite, Instr.addr,
      decide_eq_false, decide_eq_true, isMbc3, Instr.mnemonic]
  | wrLatch0Mbc3 u a | wrLatch1Mbc3 u a =>
    obtain ⟨gate, sel, rfl⟩ := isMbc3_iff.1 happ
    obtain ⟨hlo, hhi⟩ := inRange_iff.1 hwf
    simp (disch := omega) [tableKind_of_write hw, tableWrites0, field_busTop, field_data, hw, ha, hd rfl,
      Instr.isWrite, Instr.addr, Instr.data, decide_eq_false, decide_eq_true, isMbc3, Instr.mnemonic]
  | wrLatchXMbc3 u a d =>
    obtain ⟨gate, sel, rfl⟩ := isMbc3_iff.1 happ
    obtain ⟨hrange, hne0, hne1⟩ := wrLatchX_wf_iff.1 hwf
    obtain ⟨hlo, hhi⟩ := inRange_iff.1 hrange
    simp (disch := omega) [tableKind_of_write hw, tableWrites0, field_busTop, field_data, hw, ha, hd rfl,
      Instr.isWrite, Instr.addr, Instr.data, decide_eq_false, decide_eq_true, isMbc3, Instr.mnemonic]
  | wrXramMbc3Off u a d | wrXramMbc3Ram u a d | wrXramMbc3Rsv u a d | wrRtcSMbc3 u a d | wrRtcMMbc3 u a d
  | wrRtcHMbc3 u a d | wrRtcDlMbc3 u a d | wrRtcDhMbc3 u a d =>
    obtain ⟨gate, sel, rfl, hshown⟩ := viewWindow_eq_some.1 (beq_iff_eq.1 happ)
    obtain ⟨hlo, hhi⟩ := inRange_iff.1 hwf
    simp (disch := omega) [tableKind_of_write hw, tableWrites0, tableWrites1, field_busTop, hw, ha, Instr.isWrite,
      Instr.addr, decide_eq_false, decide_eq_true, viewWindow, hshown, Instr.mnemonic]
  | wrWram0 u a d | wrWramX u a d | wrHram u a d =>
    obtain rfl : t.a = a := ha
    obtain ⟨hlo, hhi⟩ := inRange_iff.1 hwf
    rw [tableKind_of_write_high hw (by omega) (by omega)]
    simp (disch := omega) [tableWrites2, field_busTop, hw, Instr.isWrite, decide_eq_false, decide_eq_true,
      Instr.mnemonic]
  | wrFfff u d | wrSvbk u d =>
    rw [tableKind_of_write_high hw (by simp [ha, Instr.addr]) (by simp [ha, Instr.addr])]
    simp [tableWrites2, field_busTop, hw, ha, Instr.isWrite, Instr.addr, Instr.mnemonic]
  | wrOpen u a d =>
    obtain rfl : t.a = a := ha
    simp only [Instr.wf, isOpen, Bool.or_eq_true, inRange_iff] at hwf
    rw [tableKind_of_write_high hw (by omega) (by omega)]
    simp (disch := omega) [tableWrites2, field_busTop, hw, Instr.isWrite, decide_eq_false, decide_eq_true,
      Instr.mnemonic]

/-- Settles O3: the decoded kind carries the word's fields and applies, and on such a word the table gives its row. -/
theorem decodeIsFirstTableRow : Obligations.DecodeIsFirstTableRow := by
  intro v t
  have h := decode_carries v t
  refine tableKind_of_fields h.wf h.applies h.isWrite.symm h.addr.symm fun hwrite => ?_
  rw [h.data, if_pos (h.isWrite ▸ hwrite)]

end Sys2Proof
end

section
/-! PROOFS. The invariant of the block: what each part of a transaction and of a host move keeps of it. -/

namespace Sys2Proof.Machine

/-! ## Legal registers -/

theorem mbc1_legal_iff {r : Mbc1} : (Controller.mbc1 r).legal = true ↔ r.romBank ≠ 0#5 := by
  simp [Controller.legal]

theorem mbc3_legal_iff {r : Mbc3} :
    (Controller.mbc3 r).legal = true ↔
      r.romBank ≠ 0#7 ∧ r.live.canonical = true ∧ r.latched.canonical = true := by
  simp [Controller.legal, and_assoc]

/-- The promotion of 0 to 1 (spec/41_mbc1.md R151). -/
theorem mbc1RomBankOf_ne_zero (d : Byte) : mbc1RomBankOf d ≠ 0#5 := by
  unfold mbc1RomBankOf
  dsimp only
  split_ifs with h
  · decide
  · exact h

/-- The promotion of 0 to 1 (spec/42_mbc3.md R171). -/
theorem mbc3RomBankOf_ne_zero (d : Byte) : mbc3RomBankOf d ≠ 0#7 := by
  unfold mbc3RomBankOf
  dsimp only
  split_ifs with h
  · decide
  · exact h

/-- What a write of an RTC register stores is in that register's range (spec/42_mbc3.md R186 to R190). -/
theorem canonical_set {r : Rtc} (h : r.canonical = true) (reg : RtcReg) (d : Byte) :
    (r.set reg (rtcWriteValue reg d)).canonical = true := by
  obtain ⟨hs, hm, hh, hdh⟩ := rtc_canonical_iff.1 h
  rw [rtc_canonical_iff]
  cases reg with
  | s => exact ⟨by simp only [Rtc.set, rtcWriteValue, BitVec.toNat_ofNat]; omega, hm, hh, hdh⟩
  | m => exact ⟨hs, by simp only [Rtc.set, rtcWriteValue, BitVec.toNat_ofNat]; omega, hh, hdh⟩
  | h => exact ⟨hs, hm, by simp only [Rtc.set, rtcWriteValue, BitVec.toNat_ofNat]; omega, hdh⟩
  | dl => exact ⟨hs, hm, hh, hdh⟩
  | dh => exact ⟨hs, hm, hh, by simp [Rtc.set, rtcWriteValue, dhMask, BitVec.and_assoc]⟩

theorem prestep_live_canonical {r : Mbc3} (h : r.live.canonical = true) (u : Bool) (hz now : Nat) :
    (r.prestep u hz now).live.canonical = true := by
  cases u with
  | false => exact h
  | true =>
    cases hhalt : dhHalt r.live.dh with
    | true => rwa [Mbc3.prestep, if_pos rfl, advance_of_halted hhalt]
    | false =>
      rw [Mbc3.prestep, if_pos rfl, advance_of_running hhalt]
      exact addSeconds_canonical h _

theorem prestep_legal {r : Mbc3} (h : (Controller.mbc3 r).legal = true) (u : Bool) (hz now : Nat) :
    (Controller.mbc3 (r.prestep u hz now)).legal = true := by
  obtain ⟨hbank, hlive, hlatched⟩ := mbc3_legal_iff.1 h
  obtain ⟨-, hbank', -, hlatched', -⟩ := mbc3_prestep_frame r u hz now
  exact mbc3_legal_iff.2 ⟨hbank' ▸ hbank, prestep_live_canonical hlive u hz now, hlatched' ▸ hlatched⟩

/-! ## The invariant, part by part -/

theorem cart_legal_of_inv {s : State} {c : Cart} (h : s.Inv) (hc : s.cart = some c) : c.legal = true := by
  obtain ⟨-, hcart, -⟩ := h
  simpa [hc] using hcart

theorem ctrl_legal_of_inv {s : State} {c : Cart} (h : s.Inv) (hc : s.cart = some c) : c.ctrl.legal = true := by
  obtain ⟨-, -, -, -, -, hk⟩ := cart_legal_iff.1 (cart_legal_of_inv h hc)
  exact hk

/-- Another legal cartridge with the same header keeps the mode, and with it the invariant. -/
theorem inv_withCart {s : State} {c c' : Cart} (h : s.Inv) (hc : s.cart = some c) (hheader : c'.header = c.header)
    (hlegal : c'.legal = true) : State.Inv { s with cart := some c' } := by
  obtain ⟨hhz, -, hwram, hhram⟩ := h
  have hcgb : State.cgb { s with cart := some c' } = s.cgb := by simp [State.cgb, hc, hheader]
  exact ⟨hhz, by simpa using hlegal, hcgb ▸ hwram, hhram⟩

theorem inv_withCtrl {s : State} {c : Cart} {k : Controller} (h : s.Inv) (hc : s.cart = some c)
    (hv : k.variant = c.ctrl.variant) (hk : k.legal = true) : (s.setCtrl c k).Inv :=
  inv_withCart h hc rfl (legal_ctrl (cart_legal_of_inv h hc) hv hk)

theorem inv_mbc1Set {s : State} {c : Cart} {r r' : Mbc1} (h : s.Inv) (hr : s.HasMbc1 c r)
    (hk : (Controller.mbc1 r').legal = true) : (s.mbc1Set c r').Inv :=
  inv_withCtrl h hr.1 (by rw [hr.2]; rfl) hk

theorem inv_mbc3Set {s : State} {c : Cart} {r r' : Mbc3} (h : s.Inv) (hr : s.HasMbc3 c r)
    (hk : (Controller.mbc3 r').legal = true) : (s.mbc3Set c r').Inv :=
  inv_withCtrl h hr.1 (by rw [hr.2]; rfl) hk

/-- A store to external RAM inside it keeps the invariant. -/
theorem inv_xramStore {s : State} {c : Cart} {off : Nat} (h : s.Inv) (hc : s.cart = some c)
    (hoff : off < c.header.xramLen) (d : Byte) : (s.setXram c (Memory.write c.xram off d)).Inv := by
  have hlegal := cart_legal_of_inv h hc
  obtain ⟨-, -, -, -, hfits, -⟩ := cart_legal_iff.1 hlegal
  exact inv_withCart h hc rfl (legal_xram hlegal (Memory.fits_write hfits hoff d))

theorem inv_prestepped {s : State} (h : s.Inv) (u : Bool) : (s.prestepped u).Inv := by
  rcases prestepped_cases s u with hs | ⟨c, r, hr, hs⟩
  · rwa [hs]
  · rw [hs]
    exact inv_mbc3Set h hr (prestep_legal (hr.2 ▸ ctrl_legal_of_inv h hr.1) u _ _)

/-- The effect of a write keeps the invariant: a command stores a legal register, a store stays in its array. -/
theorem inv_writeEffect {i : Instr} {s t : State} (h : s.Inv) (hw : WriteEffect i s t) : t.Inv := by
  cases i with
  | wrRombMbc1 u a d =>
    obtain ⟨c, r, hr, rfl⟩ := hw
    exact inv_mbc1Set h hr (mbc1_legal_iff.2 (mbc1RomBankOf_ne_zero d))
  | wrRamenMbc1 | wrRambMbc1 | wrModeMbc1 =>
    obtain ⟨c, r, hr, rfl⟩ := hw
    have hk : (Controller.mbc1 r).legal = true := hr.2 ▸ ctrl_legal_of_inv h hr.1
    exact inv_mbc1Set h hr hk
  | wrRombMbc3 u a d =>
    obtain ⟨c, r, hr, rfl⟩ := hw
    obtain ⟨-, hrtc⟩ := mbc3_legal_iff.1 (hr.2 ▸ ctrl_legal_of_inv h hr.1)
    exact inv_mbc3Set h hr (mbc3_legal_iff.2 ⟨mbc3RomBankOf_ne_zero d, hrtc⟩)
  | wrRamenMbc3 | wrSelMbc3 | wrLatch0Mbc3 | wrLatchXMbc3 =>
    obtain ⟨c, r, hr, rfl⟩ := hw
    have hk : (Controller.mbc3 r).legal = true := hr.2 ▸ ctrl_legal_of_inv h hr.1
    exact inv_mbc3Set h hr hk
  | wrLatch1Mbc3 =>
    obtain ⟨c, r, hr, rfl⟩ := hw
    obtain ⟨hbank, hlive, hlatched⟩ := mbc3_legal_iff.1 (hr.2 ▸ ctrl_legal_of_inv h hr.1)
    refine inv_mbc3Set h hr (mbc3_legal_iff.2 ?_)
    split_ifs
    · exact ⟨hbank, hlive, hlive⟩
    · exact ⟨hbank, hlive, hlatched⟩
  | wrRtcSMbc3 | wrRtcMMbc3 | wrRtcHMbc3 | wrRtcDlMbc3 | wrRtcDhMbc3 =>
    obtain ⟨c, r, hr, -, rfl⟩ := hw
    obtain ⟨hbank, hlive, hlatched⟩ := mbc3_legal_iff.1 (hr.2 ▸ ctrl_legal_of_inv h hr.1)
    exact inv_mbc3Set h hr (mbc3_legal_iff.2 ⟨hbank, canonical_set hlive _ _, hlatched⟩)
  | wrXramBasic =>
    obtain ⟨c, hc, -, ⟨hoff, rfl⟩ | ⟨-, rfl⟩⟩ := hw
    · exact inv_xramStore h hc hoff _
    · exact h
  | wrXramMbc1 =>
    obtain ⟨c, r, ⟨hc, -⟩, ⟨-, hoff, rfl⟩ | ⟨-, rfl⟩⟩ := hw
    · exact inv_xramStore h hc hoff _
    · exact h
  | wrXramMbc3Ram =>
    obtain ⟨c, r, ⟨hc, -⟩, -, ⟨-, rfl⟩ | ⟨off, -, hoff, rfl⟩⟩ := hw
    · exact h
    · exact inv_xramStore h hc hoff _
  | wrWram0 | wrWramX =>
    obtain ⟨hoff, rfl⟩ := hw
    obtain ⟨hhz, hcart, hwram, hhram⟩ := h
    exact ⟨hhz, hcart, Memory.fits_write hwram hoff _, hhram⟩
  | wrHram =>
    obtain ⟨hoff, rfl⟩ := hw
    obtain ⟨hhz, hcart, hwram, hhram⟩ := h
    exact ⟨hhz, hcart, hwram, Memory.fits_write hhram hoff _⟩
  | wrSvbk =>
    subst hw
    split <;> exact h
  | _ =>
    subst hw
    exact h

/-- Every transaction that answers keeps the invariant. -/
theorem inv_exec {i : Instr} {s t : State} (h : s.Inv) (he : exec i s = .next t) : t.Inv := by
  have hpre := inv_prestepped h i.updateRtc
  cases hi : i.isWrite with
  | false =>
    obtain ⟨-, v, rfl⟩ := exec_read_next hi he
    exact hpre
  | true =>
    obtain ⟨-, s2, act, hw, rfl⟩ := exec_write_next hi he
    have hs2 : s2.Inv := inv_writeEffect hpre hw
    exact hs2

/-! ## Legal cartridges of the host's moves -/

theorem initial_legal (v : Variant) (now : Nat) : (Controller.initial v now).legal = true := by
  have hbank : 1#7 ≠ 0#7 := by decide
  have hzero : Rtc.zero.canonical = true := by decide
  cases v with
  | basic | mbc1 => rfl
  | mbc3 => exact mbc3_legal_iff.2 ⟨hbank, hzero, hzero⟩

@[simp] theorem initial_variant (v : Variant) (now : Nat) : (Controller.initial v now).variant = v := by
  cases v <;> rfl

/-- A cartridge that was made is legal. -/
theorem makeCart_legal {file : List Byte} {now : Nat} {c : Cart} (h : makeCart file now = .ok c) : c.legal = true := by
  obtain ⟨hlen, hsum, hvalid, hrom, line, hline, rfl⟩ := makeCart_ok h
  have hfits := Memory.fits_ofBytes (file.take (parseHeader file).romLen)
  rw [List.length_take, Nat.min_eq_left hrom] at hfits
  exact cart_legal_iff.2 ⟨finalizeCart_headerMatches hlen hsum, hvalid, by simp [finalizeCart, hline], hfits,
    Memory.fits_nil _, initial_legal _ _⟩

theorem save_legal_iff {sv : Save} {h : Header} :
    sv.legal h = true ↔
      h.hasBattery = true ∧ sv.xram.length = h.xramLen ∧
        ∀ v, sv.rtc = some v → h.hasTimer = true ∧ v.live.canonical = true ∧ v.latched.canonical = true := by
  simp only [Save.legal, Bool.and_eq_true, beq_iff_eq, and_assoc]
  cases sv.rtc with
  | none => simp
  | some v => simp [RtcSave.legal]

@[simp] theorem restoreRtc_variant (k : Controller) (rtc : Option RtcSave) :
    (restoreRtc k rtc).variant = k.variant := by
  cases k <;> cases rtc <;> rfl

theorem restoreRtc_legal {k : Controller} {rtc : Option RtcSave} (hk : k.legal = true)
    (hrtc : ∀ v, rtc = some v → v.live.canonical = true ∧ v.latched.canonical = true) :
    (restoreRtc k rtc).legal = true := by
  cases rtc with
  | none => rwa [restoreRtc_none]
  | some v =>
    cases k with
    | mbc3 r =>
      obtain ⟨hbank, -, -⟩ := mbc3_legal_iff.1 hk
      exact mbc3_legal_iff.2 ⟨hbank, hrtc v rfl⟩
    | basic | mbc1 => exact hk

/-- A legal save restored into a legal cartridge leaves it legal. -/
theorem restore_legal {c : Cart} {sv : Save} (hc : c.legal = true) (hsv : sv.legal c.header = true) :
    (restore c sv).legal = true := by
  obtain ⟨hmatch, hvalid, hvariant, hrom, -, hctrl⟩ := cart_legal_iff.1 hc
  obtain ⟨-, hlen, hrtc⟩ := save_legal_iff.1 hsv
  exact cart_legal_iff.2 ⟨hmatch, hvalid, by simpa using hvariant, hrom, hlen ▸ Memory.fits_ofBytes sv.xram,
    restoreRtc_legal hctrl fun v hv => (hrtc v hv).2⟩

/-- Attaching nothing or a legal cartridge, to zeroed memories, keeps the invariant. -/
theorem inv_attach {s : State} {o : Option Cart} (h : s.Inv) (ho : o.all Cart.legal = true) (e : Option HostError) :
    State.Inv { s.attach o with report := e } := by
  obtain ⟨hhz, -⟩ := h
  exact ⟨hhz, ho, Memory.fits_nil _, Memory.fits_nil _⟩

/-- Every host move that answers keeps the invariant. -/
theorem inv_hostMove {m : HostMove} {s t : State} (h : s.Inv) (hm : hostMove m s = .next t) : t.Inv := by
  cases m with
  | load file save now =>
    obtain ⟨e, -, rfl⟩ | ⟨c, hmake, ⟨-, rfl⟩ | ⟨sv, -, hsv, rfl⟩⟩ := loadMove_next.1 hm
    · exact inv_attach (o := none) h rfl _
    · exact inv_attach (o := some c) h (makeCart_legal hmake) _
    · exact inv_attach (o := some _) h (restore_legal (makeCart_legal hmake) hsv) _
  | attach c =>
    obtain ⟨hc, rfl⟩ := attachMove_next.1 hm
    exact inv_attach (o := some c) h hc _
  | detach =>
    cases hm
    exact inv_attach (o := none) h rfl _
  | installReadObserver | installWriteObserver | useContext | tick =>
    cases hm
    exact h

/-! ## One step -/

theorem step_of_transaction {s : State} {r : Request} {rest : List Input} (h : s.queue = .transaction r :: rest) :
    step s = exec (decode s.view r.word) (s.take r rest) := by
  rw [step, h]

theorem step_of_host {s : State} {m : HostMove} {rest : List Input} (h : s.queue = .host m :: rest) :
    step s = hostMove m { s with queue := rest } := by
  rw [step, h]

theorem step_of_empty {s : State} (h : s.queue = []) : step s = .next s := by
  rw [step, h]

/-- Settles O9: taking an input off the queue touches nothing the invariant speaks of, and what is then run, a
transaction or a host move, keeps it. -/
theorem stepKeepsInvariant : Obligations.StepKeepsInvariant := by
  intro s t h hstep
  match hq : s.queue with
  | [] =>
    rw [step_of_empty hq] at hstep
    cases hstep
    exact h
  | .transaction r :: rest =>
    rw [step_of_transaction hq] at hstep
    exact inv_exec (s := s.take r rest) h hstep
  | .host m :: rest =>
    rw [step_of_host hq] at hstep
    exact inv_hostMove (s := { s with queue := rest }) h hstep

/-- Settles O6: the three cases of a step, one for what stands first in the queue. -/
theorem stepRunsDecoded : Obligations.StepRunsDecoded := fun _ =>
  ⟨step_of_empty, fun _ _ => step_of_transaction, fun _ _ => step_of_host⟩

/-- Settles O8: with no cartridge the invariant asks for the clock rate, which is a successor, and for canonical empty
memories. -/
theorem resetMeetsInvariant : Obligations.ResetMeetsInvariant :=
  ⟨Nat.le_add_left 1 _, rfl, Memory.fits_nil _, Memory.fits_nil _⟩

/-- Settles O7: the reset state field by field; a read of SVBK in DMG mode is open bus. -/
theorem resetIsEmptyContext : Obligations.ResetIsEmptyContext :=
  ⟨rfl, rfl, rfl, fun _ => ⟨rfl, rfl⟩, rfl, rfl, rfl, fun _ => rfl⟩

/-- Settles O12: a step looks at the word and the clock sample of a transaction only. -/
theorem otherRulesAreIgnored : Obligations.OtherRulesAreIgnored := fun _ _ _ _ => rfl

end Sys2Proof.Machine
end

section
/-! PROOFS. Sizes, banks and offsets: the header's size codes, the effective banks, and that every offset a rule
computes lies in its array. -/

namespace Sys2Proof.Machine

/-! ## Sizes -/

theorem romBanks_eq (h : Header) : h.romBanks = 2 * 2 ^ h.romSize.toNat := Nat.shiftLeft_eq _ _

/-- The sizes of external RAM (spec/30_encoding.md R120). -/
theorem xramLen_cases (h : Header) :
    h.xramLen = 0 ∨ h.xramLen = 0x2000 ∨ h.xramLen = 0x8000 ∨ h.xramLen = 0x20000 ∨ h.xramLen = 0x10000 := by
  unfold Header.xramLen
  split <;> simp

/-- External RAM is whole banks. -/
theorem xramBanks_mul (h : Header) : h.xramBanks * 0x2000 = h.xramLen := by
  have hcases := xramLen_cases h
  rw [Header.xramBanks]
  omega

theorem typeLine_basic {h : Header}
    (ht : h.cartridgeType = 0x00#8 ∨ h.cartridgeType = 0x01#8 ∨ h.cartridgeType = 0x02#8) :
    ∃ ram battery, typeLine h.cartridgeType = some ⟨.basic, ram, battery, false⟩ ∧
      (h.cartridgeType = 0x00#8 → ram = false) := by
  rcases ht with ht | ht | ht <;> rw [ht]
  · exact ⟨_, _, rfl, fun _ => rfl⟩
  · exact ⟨_, _, rfl, by decide⟩
  · exact ⟨_, _, rfl, by decide⟩

/-- What the Basic validator accepts (spec/60_exceptions.md R278). -/
theorem valid_basic {h : Header} {ram battery timer : Bool}
    (hline : typeLine h.cartridgeType = some ⟨.basic, ram, battery, timer⟩) :
    h.valid = true ↔ h.romSize.toNat = 0 ∧ (h.ramSize.toNat = 0 ∨ ram = true ∧ h.ramSize.toNat = 2) := by
  simp [Header.valid, hline, sizesValid]

/-- A valid Basic cartridge has the smallest ROM. -/
theorem romLen_of_romSize_zero {h : Header} (hrom : h.romSize.toNat = 0) : h.romLen = 0x8000 := by
  simp [romLen_eq, hrom]

/-- Settles O16: the lengths are read off the size codes, and the Basic validator leaves two of these. -/
theorem basicSizes : Obligations.BasicSizes := by
  intro h
  have hcode : ∀ code, h.ramSize = code → h.xramLen = Header.xramLen { h with ramSize := code } := by
    rintro code rfl
    rfl
  have hbanks : ∀ n, h.xramLen = n → h.xramLen = n ∧ h.xramBanks = n / 0x2000 := by
    rintro n rfl
    exact ⟨rfl, rfl⟩
  refine ⟨⟨romLen_eq h, romBanks_eq h⟩, fun hr => hbanks _ (hcode _ hr), fun hr => hbanks _ (hcode _ hr),
    fun hr => hbanks _ (hcode _ hr), fun hr => hbanks _ (hcode _ hr), fun hr => hbanks _ (hcode _ hr),
    fun hvalid ht => ?_⟩
  obtain ⟨ram, battery, hline, hnoRam⟩ := typeLine_basic ht
  obtain ⟨hrom, hram⟩ := (valid_basic hline).1 hvalid
  have hramSize : h.ramSize = 0x00#8 ∨ h.ramSize = 0x02#8 :=
    hram.imp BitVec.eq_of_toNat_eq fun hr => BitVec.eq_of_toNat_eq hr.2
  refine ⟨romLen_of_romSize_zero hrom, fun hzero => ?_, hcode _, hcode _, hramSize⟩
  rcases hram with hram | ⟨hline, -⟩
  · exact hcode 0x00#8 (BitVec.eq_of_toNat_eq hram)
  · exact absurd (hnoRam hzero) (by simp [hline])

/-! ## Banks and offsets -/

/-- The number of banks is a power of two, so the mask is the remainder (spec/41_mbc1.md R157). -/
theorem maskBank_romBanks (raw : Nat) (h : Header) :
    maskBank raw h.romBanks = raw % (2 * 2 ^ h.romSize.toNat) := by
  rw [maskBank, romBanks_eq, ← pow_succ', Nat.and_two_pow_sub_one_eq_mod]

theorem romOffset_eq (bank : Nat) (a : Addr) : romOffset bank a = bank * 0x4000 + a.toNat % 0x4000 := by
  simp [romOffset, field]

/-- A bank below the number of banks is in the ROM. -/
theorem romOffset_lt {h : Header} {bank : Nat} (hbank : bank < 2 * 2 ^ h.romSize.toNat) (a : Addr) :
    romOffset bank a < h.romLen := by
  rw [romOffset_eq, romLen_eq]
  omega

theorem mbc1Bank0_eq (r : Mbc1) (h : Header) :
    mbc1Bank0 r h.romBanks = if r.mode = 0#1 then 0 else r.ramBank.toNat * 32 % (2 * 2 ^ h.romSize.toNat) := by
  rw [mbc1Bank0, maskBank_romBanks, Nat.shiftLeft_eq]

theorem mbc1BankX_eq (r : Mbc1) (h : Header) :
    mbc1BankX r h.romBanks = (r.ramBank.toNat * 32 + r.romBank.toNat) % (2 * 2 ^ h.romSize.toNat) := by
  rw [mbc1BankX, maskBank_romBanks, ← Nat.shiftLeft_add_eq_or_of_lt r.romBank.isLt, Nat.shiftLeft_eq]

theorem mbc1Bank0_lt (r : Mbc1) (h : Header) : mbc1Bank0 r h.romBanks < 2 * 2 ^ h.romSize.toNat := by
  have hpos : 0 < 2 * 2 ^ h.romSize.toNat := by positivity
  rw [mbc1Bank0_eq]
  split_ifs
  · exact hpos
  · exact Nat.mod_lt _ hpos

theorem mbc1BankX_lt (r : Mbc1) (h : Header) : mbc1BankX r h.romBanks < 2 * 2 ^ h.romSize.toNat := by
  rw [mbc1BankX_eq]
  exact Nat.mod_lt _ (by positivity)

theorem mbc3BankX_eq (r : Mbc3) (h : Header) :
    mbc3BankX r h.romBanks = r.romBank.toNat % (2 * 2 ^ h.romSize.toNat) := maskBank_romBanks _ _

theorem mbc3BankX_lt (r : Mbc3) (h : Header) : mbc3BankX r h.romBanks < 2 * 2 ^ h.romSize.toNat := by
  rw [mbc3BankX_eq]
  exact Nat.mod_lt _ (by positivity)

/-- If there is RAM at all, the MBC1 bank is in it: above 8 KiB there are at least four banks. -/
theorem mbc1RamOffset_lt {h : Header} (r : Mbc1) {a : Addr} (hram : h.xramLen ≠ 0) (hhigh : a.toNat ≤ 0xBFFF) :
    mbc1RamOffset r h.xramLen a < h.xramLen := by
  have hbank : r.ramBank.toNat < 4 := r.ramBank.isLt
  have hcases := xramLen_cases h
  unfold mbc1RamOffset mbc1RamBank rel
  split_ifs <;> omega

theorem mbc3RamOffset_of_noRam {h : Header} (r : Mbc3) (a : Addr) (hram : h.xramLen = 0) :
    mbc3RamOffset r h.xramBanks a = none := by
  rw [mbc3RamOffset, if_pos (by rw [Header.xramBanks, hram])]

theorem mbc3RamOffset_of_ram {h : Header} (r : Mbc3) (a : Addr) (hram : h.xramLen ≠ 0) :
    mbc3RamOffset r h.xramBanks a = some (r.sel.toNat % h.xramBanks * 0x2000 + rel a 0xA000) := by
  have hbanks := xramBanks_mul h
  rw [mbc3RamOffset, if_neg (by omega)]

/-- The remainder by the number of banks is a populated bank. -/
theorem mbc3RamOffset_lt {h : Header} (sel : Nat) {a : Addr} (hram : h.xramLen ≠ 0) (hhigh : a.toNat ≤ 0xBFFF) :
    sel % h.xramBanks * 0x2000 + rel a 0xA000 < h.xramLen := by
  have hbanks := xramBanks_mul h
  have hbank : sel % h.xramBanks < h.xramBanks := Nat.mod_lt _ (by omega)
  rw [rel]
  omega

/-- High RAM is the 127 bytes below 0xFFFF. -/
theorem rel_lt_hramLen {a : Addr} (hhigh : a.toNat ≤ 0xFFFE) : rel a 0xFF80 < hramLen := by
  rw [rel, hramLen]
  omega

end Sys2Proof.Machine
end

section
/-! PROOFS. What the kinds of a Basic, an MBC1 and an MBC3 cartridge answer. -/

namespace Sys2Proof.Machine

/-! ## Basic and MBC1 -/

theorem view_of_basic {s : State} {c : Cart} (hc : s.cart = some c) (hb : c.ctrl = .basic) : s.view = .basic := by
  simp [State.view, hc, hb]

theorem decodeRead_basic_rom (u : Bool) {a : Addr} (ha : a.toNat ≤ 0x7FFF) :
    decodeRead .basic u a = .rdRomBasic u a :=
  decodeRead_rom ((route_eq_iff a .rom).2 ha)

/-- Settles O17: the address decodes to the Basic ROM read, and the ROM is as long as the window. -/
theorem basicRomIsFlat : Obligations.BasicRomIsFlat := by
  intro s c u a _ hc hb ha
  have hlen : a.toNat < 0x8000 * 2 ^ c.header.romSize.toNat := by
    have := romLen_ge c.header
    rw [romLen_eq] at this
    omega
  obtain ⟨hread, -⟩ := basicRomWindow s c u a 0x00#8 hc hb
  rwa [if_pos hlen, ← decodeRead_basic_rom u ha, ← view_of_basic hc hb] at hread

/-- Settles O19: each region reads the byte of its effective bank, which the mask keeps in the ROM. -/
theorem mbc1RomBanks : Obligations.Mbc1RomBanks := by
  intro s c r u a h
  rw [← mbc1Bank0_eq, ← mbc1BankX_eq, ← romOffset_eq, ← romOffset_eq]
  exact ⟨readsAs_of_noMbc3 (mbc3?_of_hasMbc1 h) rfl
      (withMbc1_next.2 ⟨c, r, h, readArray_next.2 ⟨romOffset_lt (mbc1Bank0_lt r c.header) a, rfl⟩⟩),
    readsAs_of_noMbc3 (mbc3?_of_hasMbc1 h) rfl
      (withMbc1_next.2 ⟨c, r, h, readArray_next.2 ⟨romOffset_lt (mbc1BankX_lt r c.header) a, rfl⟩⟩)⟩

/-- Settles O20: with some RAM the offset is in it, so the range test of the rule fails only without RAM. -/
theorem mbc1XramWindow : Obligations.Mbc1XramWindow := by
  intro s c r u a d off h _ hhigh hoff
  rw [← rel, ← mbc1RamBank, ← mbc1RamOffset] at hoff
  rw [hoff]
  have hmbc3 := mbc3?_of_hasMbc1 h
  constructor
  · intro hclosed
    have hno : ¬ (r.ramEnable = true ∧ mbc1RamOffset r c.header.xramLen a < c.header.xramLen) := by
      rintro ⟨hopen, hin⟩
      rcases hclosed with hgate | hram
      · rw [hgate] at hopen
        cases hopen
      · omega
    exact ⟨readsAs_of_noMbc3 hmbc3 rfl (withMbc1_next.2 ⟨c, r, h, if_neg hno⟩),
      writesAs_of_noMbc3 hmbc3 rfl (withMbc1_next.2 ⟨c, r, h, if_neg hno⟩) rfl⟩
  · intro hopen hram
    have hin := mbc1RamOffset_lt r hram hhigh
    exact ⟨hin, readsAs_of_noMbc3 hmbc3 rfl (withMbc1_next.2 ⟨c, r, h, if_pos ⟨hopen, hin⟩⟩),
      writesAs_of_noMbc3 hmbc3 rfl (withMbc1_next.2 ⟨c, r, h, if_pos ⟨hopen, hin⟩⟩) rfl⟩

/-! ## MBC3 -/

section
variable {i : Instr} {s : State} {c : Cart} {r : Mbc3} {u : Bool} {a : Addr} {d : Byte}

/-- A read on an MBC3 answers as its access rule does on the registers the pre-step left. -/
theorem readsAs_of_mbc3 {k : Cart → Mbc3 → Res Byte} {v : Byte} (h : s.HasMbc3 c r) (hclock : s.ClockFine u)
    (hexec : exec i s = busRead u a (fun t => t.withMbc3 k) s)
    (hk : k { c with ctrl := .mbc3 (r.prestep u s.hostHz s.now) } (r.prestep u s.hostHz s.now) = .next v) :
    ReadsAs i s (s.mbc3Set c (r.prestep u s.hostHz s.now)) a v :=
  readsAs_of_busRead hexec (clockOk_of_clockFine h hclock) (prestepped_of_mbc3 h u)
    (withMbc3_next.2 ⟨_, _, hasMbc3_mbc3Set s c _, hk⟩)

/-- `readsAs_of_mbc3` for a kind that needs a window shown. -/
theorem readsAs_of_window {w : Window} {k : Cart → Mbc3 → Res Byte} {v : Byte} (h : s.HasMbc3 c r)
    (hclock : s.ClockFine u) (hshown : r.window = w)
    (hexec : exec i s = busRead u a (fun t => t.withWindow w k) s)
    (hk : k { c with ctrl := .mbc3 (r.prestep u s.hostHz s.now) } (r.prestep u s.hostHz s.now) = .next v) :
    ReadsAs i s (s.mbc3Set c (r.prestep u s.hostHz s.now)) a v :=
  readsAs_of_mbc3 h hclock hexec ((if_pos ((prestep_window r u _ _).trans hshown)).trans hk)

/-- A write on an MBC3 whose window is shown answers as its access rule does on the registers the pre-step left. -/
theorem writesAs_of_window {w : Window} {k : State → Cart → Mbc3 → Res (State × Byte)} {t : State} {act : Byte}
    (h : s.HasMbc3 c r) (hclock : s.ClockFine u) (hshown : r.window = w)
    (hexec : exec i s = busWrite u a d (fun t => t.withWindow w (k t)) s)
    (hk : k (s.mbc3Set c (r.prestep u s.hostHz s.now)) { c with ctrl := .mbc3 (r.prestep u s.hostHz s.now) }
      (r.prestep u s.hostHz s.now) = .next (t, act))
    (hobserver : t.writeObserver = s.writeObserver) : WritesAs i s t a d act :=
  writesAs_of_busWrite hexec (clockOk_of_clockFine h hclock) (prestepped_of_mbc3 h u)
    (withWindow_next.2 ⟨_, _, hasMbc3_mbc3Set s c _, (prestep_window r u _ _).trans hshown, hk⟩) hobserver

/-- The read of an RTC selector, whichever register it names. -/
theorem readsAs_rdRtc {reg : RtcReg} (h : s.HasMbc3 c r) (hclock : s.ClockFine u) (hshown : r.window = .rtc reg) :
    ReadsAs (.rdRtcMbc3 u a) s (s.mbc3Set c (r.prestep u s.hostHz s.now)) a (r.latched.get reg) := by
  obtain ⟨-, -, -, hlatched, -⟩ := mbc3_prestep_frame r u s.hostHz s.now
  refine readsAs_of_busRead rfl (clockOk_of_clockFine h hclock) (prestepped_of_mbc3 h u)
    (withRtcWindow_next.2 ⟨_, _, reg, hasMbc3_mbc3Set s c _, (prestep_window r u _ _).trans hshown, ?_⟩)
  rw [hlatched]

/-- The write of an RTC selector, whichever register it names. -/
theorem writesAs_rtcWrite {reg : RtcReg} (h : s.HasMbc3 c r) (hclock : s.ClockFine u) (hshown : r.window = .rtc reg)
    (hexec : exec i s = busWrite u a d (rtcWrite reg d) s) :
    WritesAs i s
      (s.mbc3Set c { r.prestep u s.hostHz s.now with
        live := (r.prestep u s.hostHz s.now).live.set reg (rtcWriteValue reg d) }) a d (rtcWriteValue reg d) :=
  writesAs_of_busWrite hexec (clockOk_of_clockFine h hclock) (prestepped_of_mbc3 h u)
    (rtcWrite_next.2 ⟨_, _, hasMbc3_mbc3Set s c _, (prestep_window r u _ _).trans hshown, rfl, rfl⟩) rfl

end

theorem window_off {r : Mbc3} (hgate : r.ramTimerEnable = false) : r.window = .off := by
  rw [Mbc3.window, hgate]
  rfl

theorem window_ram {r : Mbc3} (hgate : r.ramTimerEnable = true) (hsel : r.sel.toNat ≤ 3) : r.window = .ram := by
  rw [Mbc3.window, hgate]
  exact if_pos hsel

/-- With the gate open the window is the selector's. -/
theorem window_of_sel {r : Mbc3} {sel : BitVec 4} (hgate : r.ramTimerEnable = true) (hsel : r.sel = sel) :
    r.window = mbc3Window true sel := by
  rw [Mbc3.window, hgate, hsel]

theorem window_rsv {r : Mbc3} (hgate : r.ramTimerEnable = true)
    (hsel : (4 ≤ r.sel.toNat ∧ r.sel.toNat ≤ 7) ∨ (13 ≤ r.sel.toNat ∧ r.sel.toNat ≤ 15)) : r.window = .rsv := by
  rw [Mbc3.window, hgate, mbc3Window]
  simp (disch := omega) only [Bool.not_true, Bool.false_eq_true, if_false, if_neg]

/-- Settles O23: the fixed region is the start of the ROM, the switchable one its masked bank. -/
theorem mbc3RomBanks : Obligations.Mbc3RomBanks := by
  rintro s c r p u a h hclock rfl
  constructor
  · intro hlow
    have hlen := romLen_ge c.header
    exact readsAs_of_mbc3 h hclock rfl (readArray_next.2 ⟨by dsimp only; omega, rfl⟩)
  · obtain ⟨-, hbank, -⟩ := mbc3_prestep_frame r u s.hostHz s.now
    rw [← hbank, ← mbc3BankX_eq, ← romOffset_eq]
    exact readsAs_of_mbc3 h hclock rfl (readArray_next.2 ⟨romOffset_lt (mbc3BankX_lt _ c.header) a, rfl⟩)

/-- Settles O24: with the gate closed, or no register behind the selector, the access rule is open bus. -/
theorem mbc3WindowIsOpenBus : Obligations.Mbc3WindowIsOpenBus := by
  rintro s c r p u a d h hclock rfl
  constructor
  · intro hgate
    have hshown := window_off hgate
    exact ⟨readsAs_of_window h hclock hshown rfl rfl,
      writesAs_of_window (k := fun t _ _ => droppedWrite t) h hclock hshown rfl rfl rfl⟩
  · intro hgate hsel
    have hshown := window_rsv hgate hsel
    exact ⟨readsAs_of_window h hclock hshown rfl rfl,
      writesAs_of_window (k := fun t _ _ => droppedWrite t) h hclock hshown rfl rfl rfl⟩

/-- Settles O26: the selector names the register, and the pre-step keeps the latched ones. -/
theorem mbc3ReadsLatchedRegister : Obligations.Mbc3ReadsLatchedRegister := by
  rintro s c r p u a h hclock rfl hgate
  exact ⟨fun hsel => readsAs_rdRtc (reg := .s) h hclock (window_of_sel hgate hsel),
    fun hsel => readsAs_rdRtc (reg := .m) h hclock (window_of_sel hgate hsel),
    fun hsel => readsAs_rdRtc (reg := .h) h hclock (window_of_sel hgate hsel),
    fun hsel => readsAs_rdRtc (reg := .dl) h hclock (window_of_sel hgate hsel),
    fun hsel => readsAs_rdRtc (reg := .dh) h hclock (window_of_sel hgate hsel)⟩

/-- Settles O27: the selector names the register, and the value stored is the byte reduced for it. -/
theorem mbc3WritesLiveRegister : Obligations.Mbc3WritesLiveRegister := by
  rintro s c r p u a d h hclock rfl hgate
  exact ⟨fun hsel => writesAs_rtcWrite (reg := .s) h hclock (window_of_sel hgate hsel) rfl,
    fun hsel => writesAs_rtcWrite (reg := .m) h hclock (window_of_sel hgate hsel) rfl,
    fun hsel => writesAs_rtcWrite (reg := .h) h hclock (window_of_sel hgate hsel) rfl,
    fun hsel => writesAs_rtcWrite (reg := .dl) h hclock (window_of_sel hgate hsel) rfl,
    fun hsel => writesAs_rtcWrite (reg := .dh) h hclock (window_of_sel hgate hsel) rfl⟩

/-- The store rule of the MBC3 RAM window in the state `t` it meets. -/
def mbc3RamStore (a : Addr) (d : Byte) (t : State) (c : Cart) (r : Mbc3) : Res (State × Byte) :=
  match mbc3RamOffset r c.header.xramBanks a with
  | none => droppedWrite t
  | some off => andThen (writeArray .xram c.header.xramLen c.xram off d) fun m => .next (t.setXram c m, d)

section
variable {s : State} {c : Cart} {r : Mbc3} {u : Bool} {a : Addr} {d : Byte}

/-- Without RAM the rule of the RAM window has no offset. -/
theorem mbc3RamWindow_of_noRam (h : s.HasMbc3 c r) (hclock : s.ClockFine u) (hshown : r.window = .ram)
    (hram : c.header.xramLen = 0) :
    ReadsAs (.rdXramMbc3Ram u a) s (s.mbc3Set c (r.prestep u s.hostHz s.now)) a 0xFF#8 ∧
      WritesAs (.wrXramMbc3Ram u a d) s (s.mbc3Set c (r.prestep u s.hostHz s.now)) a d 0xFF#8 := by
  have hnone := mbc3RamOffset_of_noRam (r.prestep u s.hostHz s.now) a hram
  exact ⟨readsAs_of_window h hclock hshown rfl (by simp only [hnone]; rfl),
    writesAs_of_window (k := mbc3RamStore a d) h hclock hshown rfl (by simp only [mbc3RamStore, hnone]; rfl) rfl⟩

/-- With RAM its offset is in a populated bank. -/
theorem mbc3RamWindow_of_ram {off : Nat} (h : s.HasMbc3 c r) (hclock : s.ClockFine u) (hshown : r.window = .ram)
    (hram : c.header.xramLen ≠ 0) (hhigh : a.toNat ≤ 0xBFFF)
    (hoff : off = r.sel.toNat % c.header.xramBanks * 0x2000 + rel a 0xA000) :
    ReadsAs (.rdXramMbc3Ram u a) s (s.mbc3Set c (r.prestep u s.hostHz s.now)) a (Memory.read c.xram off) ∧
      WritesAs (.wrXramMbc3Ram u a d) s
        { s with
          cart := some { c with
            xram := Memory.write c.xram off d
            ctrl := .mbc3 (r.prestep u s.hostHz s.now) } } a d d := by
  obtain ⟨-, -, hkept, -⟩ := mbc3_prestep_frame r u s.hostHz s.now
  have hsome := mbc3RamOffset_of_ram (r.prestep u s.hostHz s.now) a hram
  rw [hkept, ← hoff] at hsome
  have hin : off < c.header.xramLen := hoff ▸ mbc3RamOffset_lt r.sel.toNat hram hhigh
  refine ⟨readsAs_of_window h hclock hshown rfl ?read,
    writesAs_of_window (k := mbc3RamStore a d) h hclock hshown rfl ?write rfl⟩
  case read =>
    simp only [hsome]
    exact readArray_next.2 ⟨hin, rfl⟩
  case write =>
    simp only [mbc3RamStore, hsome]
    exact andThen_next.2 ⟨_, writeArray_next.2 ⟨hin, rfl⟩, rfl⟩

end

/-- Settles O25: a selector of 0 to 3 shows the RAM window, with RAM or without. -/
theorem mbc3XramBanks : Obligations.Mbc3XramBanks := by
  rintro s c r p u a d off h hclock rfl hgate hsel _ hhigh hoff
  rw [← Header.xramBanks, ← rel] at hoff
  have hshown := window_ram hgate hsel
  exact ⟨mbc3RamWindow_of_noRam h hclock hshown, fun hram => mbc3RamWindow_of_ram h hclock hshown hram hhigh hoff⟩

end Sys2Proof.Machine
end

section
/-! PROOFS. The family of spec/43_rtc.md: the sum of the advance is additive, and is the ripple carries. -/

namespace Sys2Proof.Machine

/-- Settles O28: the halted branch of the advance. -/
theorem haltedAdvanceOnlyMovesTimestamp : Obligations.HaltedAdvanceOnlyMovesTimestamp :=
  fun _ hz now hhalt => advance_of_halted hhalt hz now

theorem rtc_eq_of_fields {r q : Rtc} (hs : r.s = q.s) (hm : r.m = q.m) (hh : r.h = q.h) (hdl : r.dl = q.dl)
    (hdh : r.dh = q.dh) : r = q := by
  cases r
  cases q
  simp_all

/-- Two day counts written one after the other are the last one alone, if it agrees with the second in bit 8 and
passes 511 when one of them does. -/
theorem dhAfterDays_dhAfterDays (dh : Byte) {days days' total : Nat} (hbit : days' / 256 % 2 = total / 256 % 2)
    (hover : 511 < total ↔ 511 < days ∨ 511 < days') :
    dhAfterDays (dhAfterDays dh days) days' = dhAfterDays dh total := by
  ext i hi
  simp only [dhAfterDays_getElem, hbit, hover]
  split_ifs with h0
  · rfl
  · simp [Bool.or_assoc, and_or_left]

section
variable (r : Rtc) (n : Nat)

theorem addSeconds_s : (r.addSeconds n).s = BitVec.ofNat 8 ((r.seconds + n) % 60) := rfl

theorem addSeconds_m : (r.addSeconds n).m = BitVec.ofNat 8 ((r.seconds + n) / 60 % 60) := rfl

theorem addSeconds_h : (r.addSeconds n).h = BitVec.ofNat 8 ((r.seconds + n) / 3600 % 24) := rfl

theorem addSeconds_dl : (r.addSeconds n).dl = BitVec.ofNat 8 ((r.seconds + n) / 86400 % 256) := rfl

theorem addSeconds_dh : (r.addSeconds n).dh = dhAfterDays r.dh ((r.seconds + n) / 86400) := rfl

end

/-- Adding seconds twice is adding them at once: what the first sum loses past 512 days is whole minutes, hours and
days, and its overflow is kept. -/
theorem addSeconds_addSeconds (r : Rtc) (n m : Nat) : (r.addSeconds n).addSeconds m = r.addSeconds (n + m) := by
  have hsum := addSeconds_seconds r n
  apply rtc_eq_of_fields
  · rw [addSeconds_s, addSeconds_s, hsum]
    congr 1
    omega
  · rw [addSeconds_m, addSeconds_m, hsum]
    congr 1
    omega
  · rw [addSeconds_h, addSeconds_h, hsum]
    congr 1
    omega
  · rw [addSeconds_dl, addSeconds_dl, hsum]
    congr 1
    omega
  · rw [addSeconds_dh, addSeconds_dh, addSeconds_dh, hsum]
    exact dhAfterDays_dhAfterDays r.dh (by omega) (by omega)

/-- What is left of the way to `t2` after the whole seconds to `t1` holds the other whole seconds to `t2`. -/
theorem wholeSeconds_split {hz t0 t1 t2 : Nat} (hpos : 1 ≤ hz) (hle : t1 ≤ t2) :
    (t1 - t0) / hz + (t2 - (t0 + (t1 - t0) / hz * hz)) / hz = (t2 - t0) / hz := by
  have hcount : (t1 - t0) / hz * hz ≤ t1 - t0 := Nat.div_mul_le_self _ _
  rw [Nat.add_comm, ← Nat.add_mul_div_right _ _ hpos]
  congr 1
  omega

/-- Settles O31: the first advance leaves the remainder below one second, so the whole seconds of both are those of the
last alone. -/
theorem advanceIsAdditive : Obligations.AdvanceIsAdditive := by
  intro r hz t1 t2 hpos _ hrun _ hle
  have hrun1 : dhHalt (r.advance hz t1).live.dh = false := by
    rw [advance_of_running hrun hz t1]
    exact (addSeconds_halt _ _).trans hrun
  have hsplit := wholeSeconds_split (t0 := r.lastUpdateTime) hpos hle
  rw [advance_of_running hrun1, advance_of_running hrun hz t1, advance_of_running hrun hz t2]
  dsimp only
  rw [addSeconds_addSeconds, Nat.add_assoc, ← Nat.add_mul, hsplit]

/-! ## Ripple carries -/

theorem dayCounter_eq (r : Rtc) : r.dayCounter = r.dl.toNat + 256 * (r.dh.toNat % 2) := by
  simp [Rtc.dayCounter, field]

/-- A day count the registers hold leaves `DH` as it is. -/
theorem dhAfterDays_dayCounter (r : Rtc) : dhAfterDays r.dh r.dayCounter = r.dh := by
  have hdl := r.dl.isLt
  have hday := dayCounter_eq r
  ext i hi
  rw [dhAfterDays_getElem]
  split_ifs with h0
  · subst h0
    have hbit : r.dayCounter / 256 % 2 = 1 ↔ r.dh.toNat % 2 = 1 := by omega
    simp [hbit, BitVec.getElem_eq_testBit_toNat, Nat.testBit_zero]
  · have hover : ¬ 511 < r.dayCounter := by omega
    simp [hover]

/-- The number of seconds, split at the day. -/
theorem seconds_eq_dayCounter (r : Rtc) :
    r.seconds = r.s.toNat + 60 * r.m.toNat + 3600 * r.h.toNat + 86400 * r.dayCounter := rfl

/-- The registers are a sum if their digits are the digits of the sum. -/
theorem eq_addSeconds_of_digits {r q : Rtc} {n days : Nat} (hs : q.s.toNat < 60) (hm : q.m.toNat < 60)
    (hh : q.h.toNat < 24) (hdl : q.dl.toNat = days % 256) (hdh : q.dh = dhAfterDays r.dh days)
    (hsum : r.seconds + n = q.s.toNat + 60 * q.m.toNat + 3600 * q.h.toNat + 86400 * days) : q = r.addSeconds n := by
  have hdays : (r.seconds + n) / 86400 = days := by omega
  apply rtc_eq_of_fields
  · rw [addSeconds_s, eq_comm]
    exact BitVec.eq_of_toNat_eq (by rw [BitVec.toNat_ofNat]; omega)
  · rw [addSeconds_m, eq_comm]
    exact BitVec.eq_of_toNat_eq (by rw [BitVec.toNat_ofNat]; omega)
  · rw [addSeconds_h, eq_comm]
    exact BitVec.eq_of_toNat_eq (by rw [BitVec.toNat_ofNat]; omega)
  · rw [addSeconds_dl, eq_comm, hdays]
    exact BitVec.eq_of_toNat_eq (by rw [BitVec.toNat_ofNat]; omega)
  · rw [addSeconds_dh, hdays, hdh]

/-- `eq_addSeconds_of_digits` for a sum that reaches no other day. -/
theorem eq_addSeconds_of_sameDay {r q : Rtc} {n : Nat} (hs : q.s.toNat < 60) (hm : q.m.toNat < 60)
    (hh : q.h.toNat < 24) (hdl : q.dl = r.dl) (hdh : q.dh = r.dh)
    (hsum : r.s.toNat + 60 * r.m.toNat + 3600 * r.h.toNat + n =
      q.s.toNat + 60 * q.m.toNat + 3600 * q.h.toNat) : q = r.addSeconds n := by
  have hlow := r.dl.isLt
  have hday := dayCounter_eq r
  have hsec := seconds_eq_dayCounter r
  refine eq_addSeconds_of_digits hs hm hh ?_ (hdh.trans (dhAfterDays_dayCounter r).symm) (by omega)
  rw [hdl]
  omega

theorem addSeconds_zero {r : Rtc} (hr : r.canonical = true) : r.addSeconds 0 = r := by
  obtain ⟨hs, hm, hh, -⟩ := rtc_canonical_iff.1 hr
  exact (eq_addSeconds_of_sameDay (by omega) (by omega) (by omega) rfl rfl rfl).symm

/-- One ripple carry is one second added, whichever digit the carry stops at. -/
theorem rippleSecond_eq_addSeconds {r : Rtc} (hr : r.canonical = true) : r.rippleSecond = r.addSeconds 1 := by
  obtain ⟨hs, hm, hh, -⟩ := rtc_canonical_iff.1 hr
  have hlow := r.dl.isLt
  have hday := dayCounter_eq r
  have hsec := seconds_eq_dayCounter r
  unfold Rtc.rippleSecond
  split_ifs with hsecond hminute hhour hdays
  · exact eq_addSeconds_of_sameDay (by bv_omega) (by bv_omega) (by bv_omega) rfl rfl (by bv_omega)
  · exact eq_addSeconds_of_sameDay (by bv_omega) (by bv_omega) (by bv_omega) rfl rfl (by bv_omega)
  · exact eq_addSeconds_of_sameDay (by bv_omega) (by bv_omega) (by bv_omega) rfl rfl (by bv_omega)
  · have hbit : (r.dayCounter + 1) / 256 % 2 = (r.dayCounter + 1) / 256 := by omega
    have hover : ¬ 511 < r.dayCounter + 1 := by omega
    refine eq_addSeconds_of_digits (days := r.dayCounter + 1) (by simp) (by simp) (by simp) (by bv_omega) ?_
      (by bv_omega)
    simp [dhAfterDays, hbit, hover]
  · have hwrap : r.dayCounter + 1 = 512 := by omega
    refine eq_addSeconds_of_digits (days := 512) (by simp) (by simp) (by simp) (by simp) ?_ (by bv_omega)
    simp [dhAfterDays]

/-- Settles O32: by induction on the number of seconds, adding one at a time. -/
theorem sumIsRippleCarries : Obligations.SumIsRippleCarries := by
  intro r n hr
  induction n with
  | zero => exact (addSeconds_zero hr).symm
  | succ n ih =>
    rw [Function.iterate_succ_apply', ih, rippleSecond_eq_addSeconds (addSeconds_canonical hr n),
      addSeconds_addSeconds]

end Sys2Proof.Machine
end

section
/-! PROOFS. What every transaction leaves alone: arrays it does not store to, observers and ports, and each controller
register but its own command's. -/

namespace Sys2Proof.Machine

/-! ## Arrays and ports -/

theorem exec_frame {i : Instr} {s t : State} (h : exec i s = .next t) :
    (storesXram i = false → t.xram = s.xram) ∧ (storesWram i = false → t.wram = s.wram) ∧
      (storesHram i = false → t.hram = s.hram) ∧ (storesSvbk i = false → t.svbk = s.svbk) ∧
      t.readObserver = s.readObserver ∧ t.writeObserver = s.writeObserver ∧ t.hostHz = s.hostHz ∧
      t.executiveActive = s.executiveActive ∧ t.queue = s.queue ∧ t.now = s.now ∧ t.report = s.report := by
  obtain ⟨hxram, -, hexecutive, hreport⟩ := prestepped_frame s i.updateRtc
  cases hi : i.isWrite with
  | false =>
    obtain ⟨-, v, rfl⟩ := exec_read_next hi h
    have hxram' : ((s.prestepped i.updateRtc).finishRead i.addr v).xram = s.xram := hxram
    simp [hxram', hexecutive, hreport]
  | true =>
    obtain ⟨-, s2, act, hw, rfl⟩ := exec_write_next hi h
    obtain ⟨hro, hwo, hhz, hex, hq, hnow, hrep, -, hx, hwr, hhr, hsv, -⟩ := writeEffect_frame hw
    have hx' : storesXram i = false → (s2.finishWrite i.addr i.data act).xram = s.xram := fun hno =>
      (hx hno).trans hxram
    simp_all

/-- Settles O39: the frame of a transaction, read byte by byte. -/
theorem onlyStoresChangeMemory : Obligations.OnlyStoresChangeMemory := by
  intro i s t h
  obtain ⟨hxram, hwram, hhram, hrest⟩ := exec_frame h
  exact ⟨fun hno k => by rw [hxram hno], fun hno k => by rw [hwram hno], fun hno k => by rw [hhram hno], hrest⟩

/-! ## The controller after a transaction -/

/-- The MBC1 registers after the transaction `i`: a command sets its own, and nothing else reaches them. -/
def mbc1After (i : Instr) (r : Mbc1) : Mbc1 :=
  match i with
  | .wrRamenMbc1 _ _ d => { r with ramEnable := enableCompare d }
  | .wrRombMbc1 _ _ d => { r with romBank := mbc1RomBankOf d }
  | .wrRambMbc1 _ _ d => { r with ramBank := mbc1RamBankOf d }
  | .wrModeMbc1 _ _ d => { r with mode := mbc1ModeOf d }
  | _ => r

/-- The MBC3 registers after the transaction `i`, when its pre-step left them as `r`: a command sets its own, an RTC
write its live register, and nothing else reaches them. -/
def mbc3After (i : Instr) (r : Mbc3) : Mbc3 :=
  match i with
  | .wrRamenMbc3 _ _ d => { r with ramTimerEnable := enableCompare d }
  | .wrRombMbc3 _ _ d => { r with romBank := mbc3RomBankOf d }
  | .wrSelMbc3 _ _ d => { r with sel := mbc3SelOf d }
  | .wrLatch0Mbc3 _ _ => { r with latchState := 1#1 }
  | .wrLatch1Mbc3 _ _ =>
    { r with latched := if r.latchState = 1#1 then r.live else r.latched, latchState := 0#1 }
  | .wrLatchXMbc3 _ _ _ => { r with latchState := 0#1 }
  | i => { r with live := liveAfter i r.live }

/-- The controller after the transaction `i`, when its pre-step left it as `k`. -/
def ctrlAfter (i : Instr) (k : Controller) : Controller :=
  match k with
  | .basic => .basic
  | .mbc1 r => .mbc1 (mbc1After i r)
  | .mbc3 r => .mbc3 (mbc3After i r)

/-- The controller of the attached cartridge. -/
def State.ctrl? (s : State) : Option Controller := s.cart.map (·.ctrl)

theorem ctrl?_of_hasMbc1 {s : State} {c : Cart} {r : Mbc1} (h : s.HasMbc1 c r) : s.ctrl? = some (.mbc1 r) := by
  obtain ⟨hcart, hctrl⟩ := h
  simp [State.ctrl?, hcart, hctrl]

theorem ctrl?_of_hasMbc3 {s : State} {c : Cart} {r : Mbc3} (h : s.HasMbc3 c r) : s.ctrl? = some (.mbc3 r) := by
  obtain ⟨hcart, hctrl⟩ := h
  simp [State.ctrl?, hcart, hctrl]

theorem hasMbc1_of_ctrl? {s : State} {r : Mbc1} (h : s.ctrl? = some (.mbc1 r)) : ∃ c, s.HasMbc1 c r := by
  simpa [State.ctrl?, State.HasMbc1] using h

theorem hasMbc3_of_ctrl? {s : State} {r : Mbc3} (h : s.ctrl? = some (.mbc3 r)) : ∃ c, s.HasMbc3 c r := by
  simpa [State.ctrl?, State.HasMbc3] using h

theorem ctrl?_setXram {s : State} {c : Cart} (h : s.cart = some c) (m : Memory) :
    (s.setXram c m).ctrl? = s.ctrl? := by
  simp [State.ctrl?, h]

@[simp] theorem ctrl?_mbc1Set (s : State) (c : Cart) (r : Mbc1) : (s.mbc1Set c r).ctrl? = some (.mbc1 r) := rfl

@[simp] theorem ctrl?_mbc3Set (s : State) (c : Cart) (r : Mbc3) : (s.mbc3Set c r).ctrl? = some (.mbc3 r) := rfl

/-- A kind that is no command and no RTC write leaves the controller as it is. -/
theorem ctrlAfter_of_same {i : Instr} (h1 : ∀ r, mbc1After i r = r) (h3 : ∀ r, mbc3After i r = r) (k : Controller) :
    ctrlAfter i k = k := by
  cases k with
  | basic => rfl
  | mbc1 r => exact congrArg Controller.mbc1 (h1 r)
  | mbc3 r => exact congrArg Controller.mbc3 (h3 r)

theorem ctrlAfter_of_read {i : Instr} (hi : i.isWrite = false) (k : Controller) : ctrlAfter i k = k := by
  cases i with
  | wrRamenMbc1 | wrRombMbc1 | wrRambMbc1 | wrModeMbc1 | wrRamenMbc3 | wrRombMbc3 | wrSelMbc3 | wrLatch0Mbc3
  | wrLatch1Mbc3 | wrLatchXMbc3 | wrRtcSMbc3 | wrRtcMMbc3 | wrRtcHMbc3 | wrRtcDlMbc3 | wrRtcDhMbc3 => cases hi
  | _ => exact ctrlAfter_of_same (fun _ => rfl) (fun _ => rfl) k

theorem ctrl?_map_of_same {i : Instr} {s t : State} (h : t.ctrl? = s.ctrl?) (h1 : ∀ r, mbc1After i r = r)
    (h3 : ∀ r, mbc3After i r = r) : t.ctrl? = s.ctrl?.map (ctrlAfter i) := by
  rw [h, funext (ctrlAfter_of_same h1 h3)]
  exact Option.map_id'.symm ▸ rfl

/-- The controller across a write's effect. -/
theorem writeEffect_ctrl {i : Instr} {s t : State} (hw : WriteEffect i s t) :
    t.ctrl? = s.ctrl?.map (ctrlAfter i) := by
  cases i with
  | wrRamenMbc1 | wrRombMbc1 | wrRambMbc1 | wrModeMbc1 =>
    obtain ⟨c, r, hr, rfl⟩ := hw
    rw [ctrl?_of_hasMbc1 hr]
    rfl
  | wrRamenMbc3 | wrRombMbc3 | wrSelMbc3 | wrLatch0Mbc3 | wrLatchXMbc3 =>
    obtain ⟨c, r, hr, rfl⟩ := hw
    rw [ctrl?_of_hasMbc3 hr]
    rfl
  | wrLatch1Mbc3 =>
    obtain ⟨c, r, hr, rfl⟩ := hw
    rw [ctrl?_of_hasMbc3 hr, ctrl?_mbc3Set, Option.map_some, ctrlAfter, mbc3After]
    split_ifs <;> rfl
  | wrRtcSMbc3 | wrRtcMMbc3 | wrRtcHMbc3 | wrRtcDlMbc3 | wrRtcDhMbc3 =>
    obtain ⟨c, r, hr, -, rfl⟩ := hw
    rw [ctrl?_of_hasMbc3 hr]
    rfl
  | wrXramBasic =>
    obtain ⟨c, hc, -, ⟨-, rfl⟩ | ⟨-, rfl⟩⟩ := hw
    · exact ctrl?_map_of_same (ctrl?_setXram hc _) (fun _ => rfl) fun _ => rfl
    · exact ctrl?_map_of_same rfl (fun _ => rfl) fun _ => rfl
  | wrXramMbc1 =>
    obtain ⟨c, r, ⟨hc, -⟩, ⟨-, -, rfl⟩ | ⟨-, rfl⟩⟩ := hw
    · exact ctrl?_map_of_same (ctrl?_setXram hc _) (fun _ => rfl) fun _ => rfl
    · exact ctrl?_map_of_same rfl (fun _ => rfl) fun _ => rfl
  | wrXramMbc3Ram =>
    obtain ⟨c, r, ⟨hc, -⟩, -, ⟨-, rfl⟩ | ⟨off, -, -, rfl⟩⟩ := hw
    · exact ctrl?_map_of_same rfl (fun _ => rfl) fun _ => rfl
    · exact ctrl?_map_of_same (ctrl?_setXram hc _) (fun _ => rfl) fun _ => rfl
  | wrWram0 | wrWramX | wrHram =>
    obtain ⟨-, rfl⟩ := hw
    exact ctrl?_map_of_same rfl (fun _ => rfl) fun _ => rfl
  | wrSvbk =>
    subst hw
    refine ctrl?_map_of_same ?_ (fun _ => rfl) fun _ => rfl
    split <;> rfl
  | _ =>
    subst hw
    exact ctrl?_map_of_same rfl (fun _ => rfl) fun _ => rfl

/-- The controller across a transaction: the pre-step, then the transaction's own write. -/
theorem exec_ctrl {i : Instr} {s t : State} (h : exec i s = .next t) :
    t.ctrl? = (s.prestepped i.updateRtc).ctrl?.map (ctrlAfter i) := by
  cases hi : i.isWrite with
  | false =>
    obtain ⟨-, v, rfl⟩ := exec_read_next hi h
    rw [funext (ctrlAfter_of_read hi), Option.map_id']
    rfl
  | true =>
    obtain ⟨-, s2, act, hw, rfl⟩ := exec_write_next hi h
    have hs2 := writeEffect_ctrl hw
    exact hs2

theorem exec_hasMbc1 {i : Instr} {s t : State} {c : Cart} {r : Mbc1} (hs : s.HasMbc1 c r) (h : exec i s = .next t) :
    ∃ c', t.HasMbc1 c' (mbc1After i r) := by
  have hctrl := exec_ctrl h
  rw [prestepped_of_mbc1 hs, ctrl?_of_hasMbc1 hs] at hctrl
  exact hasMbc1_of_ctrl? hctrl

theorem exec_hasMbc3 {i : Instr} {s t : State} {c : Cart} {r : Mbc3} (hs : s.HasMbc3 c r) (h : exec i s = .next t) :
    ∃ c', t.HasMbc3 c' (mbc3After i (r.prestep i.updateRtc s.hostHz s.now)) := by
  have hctrl := exec_ctrl h
  rw [prestepped_of_mbc3 hs, ctrl?_mbc3Set] at hctrl
  exact hasMbc3_of_ctrl? hctrl

/-- The MBC3 registers after a transaction are determined. -/
theorem mbc3_of_exec {i : Instr} {s t : State} {c c' : Cart} {r r' : Mbc3} (hs : s.HasMbc3 c r)
    (h : exec i s = .next t) (ht : t.HasMbc3 c' r') : r' = mbc3After i (r.prestep i.updateRtc s.hostHz s.now) := by
  obtain ⟨c'', hafter⟩ := exec_hasMbc3 hs h
  have hsame := (ctrl?_of_hasMbc3 ht).symm.trans (ctrl?_of_hasMbc3 hafter)
  simpa using hsame

theorem mbc3?_eq_none_iff {s : State} : s.mbc3? = none ↔ ∀ r, s.ctrl? ≠ some (.mbc3 r) := by
  unfold State.mbc3? State.ctrl?
  cases s.cart with
  | none => simp
  | some c => cases hk : c.ctrl <;> simp [hk]

/-- No transaction puts an MBC3 where there was none. -/
theorem exec_mbc3?_none {i : Instr} {s t : State} (hs : s.mbc3? = none) (h : exec i s = .next t) :
    t.mbc3? = none := by
  have hctrl := exec_ctrl h
  rw [prestepped_of_noAdvance (.inr hs)] at hctrl
  rw [mbc3?_eq_none_iff] at hs ⊢
  intro r ht
  obtain ⟨k, hk, hafter⟩ := Option.map_eq_some_iff.1 (hctrl.symm.trans ht)
  cases k with
  | mbc3 r => exact hs r hk
  | basic | mbc1 => cases hafter

/-! ## Register by register -/

section
variable (i : Instr) (r : Mbc3)

@[simp] theorem mbc3After_lastUpdateTime : (mbc3After i r).lastUpdateTime = r.lastUpdateTime := by
  cases i <;> rfl

@[simp] theorem mbc3After_live : (mbc3After i r).live = liveAfter i r.live := by
  cases i <;> rfl

variable {i r}

theorem liveAfter_of_notRtcWrite (hi : isRtcWrite i = false) (live : Rtc) : liveAfter i live = live := by
  cases i with
  | wrRtcSMbc3 | wrRtcMMbc3 | wrRtcHMbc3 | wrRtcDlMbc3 | wrRtcDhMbc3 => cases hi
  | _ => rfl

theorem mbc3After_latchState (hi : isLatchWrite i = false) : (mbc3After i r).latchState = r.latchState := by
  cases i with
  | wrLatch0Mbc3 | wrLatch1Mbc3 | wrLatchXMbc3 => cases hi
  | _ => rfl

/-- Only a 0x01 latch write while armed reaches the latched registers. -/
theorem mbc3After_latched :
    (mbc3After i r).latched = r.latched ∨
      ∃ u a, i = .wrLatch1Mbc3 u a ∧ r.latchState = 1#1 ∧ (mbc3After i r).latched = (mbc3After i r).live := by
  cases i with
  | wrLatch1Mbc3 u a =>
    by_cases harmed : r.latchState = 1#1
    · exact .inr ⟨u, a, rfl, harmed, if_pos harmed⟩
    · exact .inl (if_neg harmed)
  | _ => exact .inl rfl

theorem mbc3After_ramTimerEnable (hi : ∀ u a d, i ≠ .wrRamenMbc3 u a d) :
    (mbc3After i r).ramTimerEnable = r.ramTimerEnable := by
  cases i with
  | wrRamenMbc3 u a d => exact absurd rfl (hi u a d)
  | _ => rfl

theorem mbc3After_romBank (hi : ∀ u a d, i ≠ .wrRombMbc3 u a d) : (mbc3After i r).romBank = r.romBank := by
  cases i with
  | wrRombMbc3 u a d => exact absurd rfl (hi u a d)
  | _ => rfl

theorem mbc3After_sel (hi : ∀ u a d, i ≠ .wrSelMbc3 u a d) : (mbc3After i r).sel = r.sel := by
  cases i with
  | wrSelMbc3 u a d => exact absurd rfl (hi u a d)
  | _ => rfl

end

section
variable {i : Instr} {r : Mbc1}

theorem mbc1After_ramEnable (hi : ∀ u a d, i ≠ .wrRamenMbc1 u a d) : (mbc1After i r).ramEnable = r.ramEnable := by
  cases i with
  | wrRamenMbc1 u a d => exact absurd rfl (hi u a d)
  | _ => rfl

theorem mbc1After_romBank (hi : ∀ u a d, i ≠ .wrRombMbc1 u a d) : (mbc1After i r).romBank = r.romBank := by
  cases i with
  | wrRombMbc1 u a d => exact absurd rfl (hi u a d)
  | _ => rfl

theorem mbc1After_ramBank (hi : ∀ u a d, i ≠ .wrRambMbc1 u a d) : (mbc1After i r).ramBank = r.ramBank := by
  cases i with
  | wrRambMbc1 u a d => exact absurd rfl (hi u a d)
  | _ => rfl

theorem mbc1After_mode (hi : ∀ u a d, i ≠ .wrModeMbc1 u a d) : (mbc1After i r).mode = r.mode := by
  cases i with
  | wrModeMbc1 u a d => exact absurd rfl (hi u a d)
  | _ => rfl

end

/-- Settles O33: after the pre-step no kind reaches the timestamp, and only an RTC write the live registers. -/
theorem clockMovesOnlyByPrestep : Obligations.ClockMovesOnlyByPrestep := by
  intro i s t h
  refine ⟨?_, fun hnone => exec_mbc3?_none hnone h⟩
  rintro c r p hs rfl
  obtain ⟨c', ht⟩ := exec_hasMbc3 hs h
  exact ⟨c', _, ht, mbc3After_lastUpdateTime _ _, fun hno =>
    (mbc3After_live _ _).trans (liveAfter_of_notRtcWrite hno _)⟩

/-- Settles O35: the pre-step keeps the latch registers, and after it only a latch write reaches them. -/
theorem latchedChangeOnlyByLatch : Obligations.LatchedChangeOnlyByLatch := by
  intro i s t c c' r r' hs h ht
  obtain ⟨-, -, -, hlatched, hstate⟩ := mbc3_prestep_frame r i.updateRtc s.hostHz s.now
  rw [mbc3_of_exec hs h ht, ← hlatched, ← hstate]
  exact ⟨mbc3After_latched, mbc3After_latchState⟩

/-- Settles O38: register by register, every kind but its own command keeps it, and so does the pre-step. -/
theorem registersChangeOnlyByOwnCommand : Obligations.RegistersChangeOnlyByOwnCommand := by
  intro i s t h
  constructor
  · intro c r hs
    obtain ⟨c', ht⟩ := exec_hasMbc1 hs h
    exact ⟨c', _, ht, mbc1After_ramEnable, mbc1After_romBank, mbc1After_ramBank, mbc1After_mode⟩
  · intro c r hs
    obtain ⟨c', ht⟩ := exec_hasMbc3 hs h
    obtain ⟨hgate, hbank, hsel, -⟩ := mbc3_prestep_frame r i.updateRtc s.hostHz s.now
    exact ⟨c', _, ht, fun hi => (mbc3After_ramTimerEnable hi).trans hgate,
      fun hi => (mbc3After_romBank hi).trans hbank, fun hi => (mbc3After_sel hi).trans hsel⟩

/-! ## The closed gate -/

/-- The pre-step does not open the gate. -/
theorem gateClosed_prestepped {s : State} (h : s.gateClosed) (u : Bool) : (s.prestepped u).gateClosed := by
  obtain ⟨c, hc, ⟨r, hr, hgate⟩ | ⟨r, hr, hgate⟩⟩ := h
  · rw [prestepped_of_mbc1 ⟨hc, hr⟩]
    exact ⟨c, hc, .inl ⟨r, hr, hgate⟩⟩
  · obtain ⟨hkept, -⟩ := mbc3_prestep_frame r u s.hostHz s.now
    rw [prestepped_of_mbc3 ⟨hc, hr⟩]
    exact ⟨_, rfl, .inr ⟨_, rfl, hkept.trans hgate⟩⟩

theorem ramEnable_of_gateClosed {s : State} {c : Cart} {r : Mbc1} (h : s.gateClosed) (hr : s.HasMbc1 c r) :
    r.ramEnable = false := by
  obtain ⟨hcart, hctrl⟩ := hr
  simpa [State.gateClosed, hcart, hctrl] using h

theorem window_of_gateClosed {s : State} {c : Cart} {r : Mbc3} (h : s.gateClosed) (hr : s.HasMbc3 c r) :
    r.window = .off := by
  obtain ⟨hcart, hctrl⟩ := hr
  exact window_off (by simpa [State.gateClosed, hcart, hctrl] using h)

/-- With the gate closed no write stores to external RAM: the Basic rule does not apply, and the others test the gate. -/
theorem writeEffect_xram_of_gateClosed {i : Instr} {s t : State} (h : s.gateClosed) (hw : WriteEffect i s t) :
    t.xram = s.xram := by
  cases i with
  | wrXramBasic =>
    obtain ⟨c, hc, hb, -⟩ := hw
    simp [State.gateClosed, hc, hb] at h
  | wrXramMbc1 =>
    obtain ⟨c, r, hr, ⟨hopen, -⟩ | ⟨-, rfl⟩⟩ := hw
    · rw [ramEnable_of_gateClosed h hr] at hopen
      cases hopen
    · rfl
  | wrXramMbc3Ram =>
    obtain ⟨c, r, hr, hshown, -⟩ := hw
    rw [window_of_gateClosed h hr] at hshown
    cases hshown
  | _ =>
    obtain ⟨-, -, -, -, -, -, -, -, hx, -⟩ := writeEffect_frame hw
    exact hx rfl

/-- An RTC write needs its register shown in the window. -/
theorem window_of_rtcWrite {i : Instr} {s t : State} (hi : isRtcWrite i = true) (hw : WriteEffect i s t) :
    ∃ c r reg, s.HasMbc3 c r ∧ r.window = .rtc reg := by
  cases i with
  | wrRtcSMbc3 | wrRtcMMbc3 | wrRtcHMbc3 | wrRtcDlMbc3 | wrRtcDhMbc3 =>
    obtain ⟨c, r, hr, hshown, -⟩ := hw
    exact ⟨c, r, _, hr, hshown⟩
  | _ => cases hi

theorem isWrite_of_isRtcWrite {i : Instr} (hi : isRtcWrite i = true) : i.isWrite = true := by
  cases i with
  | wrRtcSMbc3 | wrRtcMMbc3 | wrRtcHMbc3 | wrRtcDlMbc3 | wrRtcDhMbc3 => rfl
  | _ => cases hi

/-- With the gate closed no RTC write answers. -/
theorem not_isRtcWrite_of_gateClosed {i : Instr} {s t : State} (hgate : s.gateClosed) (h : exec i s = .next t) :
    isRtcWrite i = false := by
  by_contra hi
  have hi : isRtcWrite i = true := by simpa using hi
  obtain ⟨-, s2, act, hw, -⟩ := exec_write_next (isWrite_of_isRtcWrite hi) h
  obtain ⟨c, r, reg, hr, hshown⟩ := window_of_rtcWrite hi hw
  rw [window_of_gateClosed (gateClosed_prestepped hgate _) hr] at hshown
  cases hshown

/-- Settles O37: with the gate closed the rules of the window store nothing, in RAM or in a live register. -/
theorem closedGateProtects : Obligations.ClosedGateProtects := by
  intro i s t hgate h
  constructor
  · intro k
    obtain ⟨hxram, -⟩ := prestepped_frame s i.updateRtc
    cases hi : i.isWrite with
    | false =>
      obtain ⟨-, v, rfl⟩ := exec_read_next hi h
      exact congrArg (Memory.read · k) hxram
    | true =>
      obtain ⟨-, s2, act, hw, rfl⟩ := exec_write_next hi h
      have hs2 := writeEffect_xram_of_gateClosed (gateClosed_prestepped hgate _) hw
      exact congrArg (Memory.read · k) (hs2.trans hxram)
  · intro c r c' r' hs ht
    rw [mbc3_of_exec hs h ht, mbc3After_live, liveAfter_of_notRtcWrite (not_isRtcWrite_of_gateClosed hgate h)]
    rfl

/-! ## Stores -/

/-- Settles O40: the effect of each store is one write of its array, and reading after it is the law of the array. -/
theorem workRamStoreChangesOneByte : Obligations.WorkRamStoreChangesOneByte := by
  intro s t u a d hinv
  obtain ⟨-, -, ⟨hwram, -⟩, ⟨hhram, -⟩⟩ := hinv
  refine ⟨fun h k => ?_, fun h k => ?_, fun h k => ?_⟩
  · obtain ⟨-, s2, act, ⟨-, rfl⟩, rfl⟩ := exec_write_next rfl h
    simpa using Memory.read_write hwram _ k d
  · obtain ⟨-, s2, act, ⟨-, rfl⟩, rfl⟩ := exec_write_next rfl h
    simpa using Memory.read_write hwram _ k d
  · obtain ⟨-, s2, act, ⟨-, rfl⟩, rfl⟩ := exec_write_next rfl h
    simpa using Memory.read_write hhram _ k d

/-- A store to the external RAM of a legal cartridge, read at another offset. -/
theorem read_xramStore_of_ne {s : State} {c : Cart} {off k : Nat} {d : Byte} (h : s.Inv) (hc : s.cart = some c)
    (hk : k ≠ off) : Memory.read (s.setXram c (Memory.write c.xram off d)).xram k = Memory.read s.xram k := by
  obtain ⟨-, -, -, -, ⟨hwf, -⟩, -⟩ := cart_legal_iff.1 (cart_legal_of_inv h hc)
  have hread := Memory.read_write hwf off k d
  rw [if_neg hk] at hread
  simpa [State.xram, hc] using hread

theorem hasMbc1_unique {s : State} {c c' : Cart} {r r' : Mbc1} (h : s.HasMbc1 c r) (h' : s.HasMbc1 c' r') :
    c' = c ∧ r' = r := by
  obtain ⟨hcart, hctrl⟩ := h
  obtain ⟨hcart', hctrl'⟩ := h'
  simp_all

theorem hasMbc3_unique {s : State} {c c' : Cart} {r r' : Mbc3} (h : s.HasMbc3 c r) (h' : s.HasMbc3 c' r') :
    c' = c ∧ r' = r := by
  obtain ⟨hcart, hctrl⟩ := h
  obtain ⟨hcart', hctrl'⟩ := h'
  simp_all

/-- The pre-step keeps the selector, and so the offset. -/
theorem mbc3RamOffset_prestep (r : Mbc3) (u : Bool) (hz now banks : Nat) (a : Addr) :
    mbc3RamOffset (r.prestep u hz now) banks a = mbc3RamOffset r banks a := by
  obtain ⟨-, -, hsel, -⟩ := mbc3_prestep_frame r u hz now
  rw [mbc3RamOffset, hsel, mbc3RamOffset]

/-- Settles O41: the effect of each store is one write of external RAM at the offset of its rule, or nothing. -/
theorem xramStoreChangesOneByte : Obligations.XramStoreChangesOneByte := by
  intro s t c u a d hinv hc
  have hinv' := inv_prestepped hinv u
  obtain ⟨hxram, -⟩ := prestepped_frame s u
  refine ⟨fun h k hk => ?basic, fun r hr h k hk => ?mbc1, fun r hr h k hk => ?mbc3⟩
  case basic =>
    obtain ⟨-, s2, act, ⟨c', hc', -, ⟨-, rfl⟩ | ⟨-, rfl⟩⟩, rfl⟩ := exec_write_next rfl h
    · exact (read_xramStore_of_ne hinv' hc' hk).trans (congrArg (Memory.read · k) hxram)
    · exact congrArg (Memory.read · k) hxram
  case mbc1 =>
    obtain ⟨-, s2, act, ⟨c', r', hr', ⟨-, -, rfl⟩ | ⟨-, rfl⟩⟩, rfl⟩ := exec_write_next rfl h
    · have hpre : (s.prestepped u).HasMbc1 c r := (prestepped_of_mbc1 ⟨hc, hr⟩ u).symm ▸ ⟨hc, hr⟩
      obtain ⟨rfl, rfl⟩ := hasMbc1_unique hpre hr'
      exact (read_xramStore_of_ne hinv' hr'.1 hk).trans (congrArg (Memory.read · k) hxram)
    · exact congrArg (Memory.read · k) hxram
  case mbc3 =>
    obtain ⟨-, s2, act, ⟨c', r', hr', -, ⟨-, rfl⟩ | ⟨off, hoff, -, rfl⟩⟩, rfl⟩ := exec_write_next rfl h
    · exact congrArg (Memory.read · k) hxram
    · have hpre := hasMbc3_mbc3Set s c (r.prestep u s.hostHz s.now)
      rw [← prestepped_of_mbc3 ⟨hc, hr⟩] at hpre
      obtain ⟨rfl, rfl⟩ := hasMbc3_unique hpre hr'
      rw [mbc3RamOffset_prestep] at hoff
      have hne : k ≠ off := by
        rintro rfl
        exact hk hoff
      exact (read_xramStore_of_ne hinv' hr'.1 hne).trans (congrArg (Memory.read · k) hxram)

end Sys2Proof.Machine
end

section
/-! PROOFS. The family of spec/44_memory_wram_hram_svbk.md: stores to work RAM and high RAM, SVBK, and round trips. -/

namespace Sys2Proof.Machine

/-! ## Stores -/

theorem wramStore_of_lt {off : Nat} {s : State} (hin : off < wramLen s.cgb) (d : Byte) :
    wramStore off d s = .next ({ s with wram := Memory.write s.wram off d }, d) :=
  andThen_next.2 ⟨_, writeArray_next.2 ⟨hin, rfl⟩, rfl⟩

/-- A write transaction around a store to work RAM at an offset inside it, which the pre-step keeps. -/
theorem writesAs_of_wramStore {i : Instr} {s : State} {u : Bool} {a : Addr} {d : Byte} {off : State → Nat}
    (hclock : s.ClockFine u) (hexec : exec i s = busWrite u a d (fun t => wramStore (off t) d t) s)
    (hoff : off (s.prestepped u) = off s) (hin : off s < wramLen s.cgb) :
    WritesAs i s { s.prestepped u with wram := Memory.write s.wram (off s) d } a d d := by
  have hstore := wramStore_of_lt (off := off (s.prestepped u)) (s := s.prestepped u) (by simpa [hoff] using hin) d
  rw [prestepped_wram, hoff] at hstore
  exact writesAs_of_busWrite hexec (clockOk_of_clockFine_any hclock) rfl (by rw [hoff]; exact hstore)
    (prestepped_writeObserver s u)

/-- Settles O43: the stores are at the offsets of the reads, which lie in the array. -/
theorem workRamWrites : Obligations.WorkRamWrites := by
  intro s u a d hclock
  constructor
  · intro _ hhigh
    exact writesAs_of_wramStore (off := fun _ => rel a 0xC000) hclock rfl rfl (rel_lt_wramLen s.cgb hhigh)
  · intro hlow _
    have hlow : 0xC000 ≤ a.toNat := by omega
    rw [← wramXOffset_eq s.cgb s.svbk hlow]
    exact writesAs_of_wramStore (off := fun t => wramXOffset t.cgb t.svbk a) hclock rfl
      (by rw [prestepped_cgb, prestepped_svbk]) (wramXOffset_lt s.cgb s.svbk hlow)

/-- Settles O44: every address of the window is in the array. -/
theorem highRamAccess : Obligations.HighRamAccess := by
  intro s u a d hclock _ hhigh
  have hok := clockOk_of_clockFine_any hclock
  have hin := rel_lt_hramLen hhigh
  constructor
  · exact readsAs_of_busRead rfl hok rfl (readArray_next.2 ⟨hin, by rw [prestepped_hram, rel]⟩)
  · refine writesAs_of_busWrite rfl hok rfl (andThen_next.2 ⟨_, writeArray_next.2 ⟨hin, rfl⟩, ?_⟩)
      (prestepped_writeObserver s u)
    rw [prestepped_hram, rel]

/-! ## SVBK -/

/-- The bits a write keeps do not show in the byte read. -/
theorem svbkRead_svbkWrite (svbk d : Byte) : svbkRead (svbkWrite svbk d) = 0xF8#8 ||| (d &&& 0x07#8) := by
  ext i hi
  simp only [svbkRead, svbkWrite, BitVec.getElem_or, BitVec.getElem_and]
  interval_cases i <;> simp

/-- Settles O45: the pre-step keeps the mode and the register, and the mode selects the branch of each rule. -/
theorem svbkAccess : Obligations.SvbkAccess := by
  intro s u d hclock
  have hok := clockOk_of_clockFine_any hclock
  have hmode := prestepped_cgb s u
  have hobserver := prestepped_writeObserver s u
  constructor
  · intro hcgb
    rw [hcgb] at hmode
    rw [← prestepped_svbk s u, ← svbkRead_svbkWrite (s.prestepped u).svbk d]
    exact ⟨readsAs_of_busRead rfl hok rfl (by rw [if_pos hmode]; rfl),
      writesAs_of_busWrite rfl hok rfl (if_pos hmode) hobserver⟩
  · intro hdmg
    have hmode : ¬ (s.prestepped u).cgb = true := by simp [hmode, hdmg]
    exact ⟨readsAs_of_busRead rfl hok rfl (by rw [if_neg hmode]; rfl),
      writesAs_of_busWrite rfl hok rfl (if_neg hmode) hobserver⟩

/-! ## A write, then a read -/

theorem clockFine_of_clockOk {s : State} {u : Bool} (h : s.clockOk u = true) : s.ClockFine u := by
  rintro c r ⟨hcart, hctrl⟩ rfl
  simpa [State.clockOk, hcart, hctrl] using h

/-- A transaction that answers met the premise on the clock. -/
theorem clockFine_of_exec {i : Instr} {s t : State} (h : exec i s = .next t) : s.ClockFine i.updateRtc := by
  cases hi : i.isWrite with
  | false => exact clockFine_of_clockOk (exec_read_next hi h).1
  | true => exact clockFine_of_clockOk (exec_write_next hi h).1

/-- With no read observer the bus master receives the byte read. -/
theorem returned_of_readsAs {i : Instr} {s s' t : State} {a : Addr} {v : Byte} (h : ReadsAs i s s' a v)
    (hobserver : s.readObserver = none) (he : exec i s = .next t) : t.returned = some v := by
  rw [ReadsAs, hobserver, he] at h
  cases h
  rfl

theorem exec_readObserver {i : Instr} {s t : State} (h : exec i s = .next t) : t.readObserver = s.readObserver := by
  obtain ⟨-, -, -, -, hobserver, -⟩ := exec_frame h
  exact hobserver

theorem exec_cgb {i : Instr} {s t : State} (h : exec i s = .next t) : t.cgb = s.cgb := by
  obtain ⟨-, hcgb⟩ := romAndModeAreFixed i s t h
  exact hcgb

/-- Settles O46: in CGB mode the register read back is the one written, in DMG mode the read is open bus. -/
theorem svbkRoundTrip : Obligations.SvbkRoundTrip := by
  intro s t t' u u' d hobserver hwrite hread
  obtain ⟨hcgb, hdmg⟩ := svbkAccess t u' d (clockFine_of_exec hread)
  have hobserver' := (exec_readObserver hwrite).trans hobserver
  have hmode := exec_cgb hwrite
  cases hs : s.cgb with
  | true =>
    obtain ⟨hreadsAs, -⟩ := hcgb (hmode.trans hs)
    have hsvbk : t.svbk = svbkWrite s.svbk d := by
      obtain ⟨-, s2, act, hw, rfl⟩ := exec_write_next rfl hwrite
      obtain rfl := hw.trans (if_pos ((prestepped_cgb s u).trans hs))
      exact congrArg (svbkWrite · d) (prestepped_svbk s u)
    rw [← svbkRead, hsvbk, svbkRead_svbkWrite] at hreadsAs
    exact returned_of_readsAs hreadsAs hobserver' hread
  | false =>
    obtain ⟨hreadsAs, -⟩ := hdmg (hmode.trans hs)
    exact returned_of_readsAs hreadsAs hobserver' hread

/-! ## The whole window, through the decoder -/

section
variable {v : View} {u : Bool} {a : Addr} {d : Byte}

theorem decodeRead_wram0 (h : inRange a 0xC000 0xCFFF = true) : decodeRead v u a = .rdWram0 u a := by
  rw [decodeRead_wram (route_wram h (by decide) (by decide)), field_of_inRange h rfl]
  rfl

theorem decodeRead_wramX (h : inRange a 0xD000 0xDFFF = true) : decodeRead v u a = .rdWramX u a := by
  rw [decodeRead_wram (route_wram h (by decide) (by decide)), field_of_inRange h rfl]
  rfl

theorem decodeWrite_wram0 (h : inRange a 0xC000 0xCFFF = true) : decodeWrite v u a d = .wrWram0 u a d := by
  rw [decodeWrite_wram (route_wram h (by decide) (by decide)), field_of_inRange h rfl]
  rfl

theorem decodeWrite_wramX (h : inRange a 0xD000 0xDFFF = true) : decodeWrite v u a d = .wrWramX u a d := by
  rw [decodeWrite_wram (route_wram h (by decide) (by decide)), field_of_inRange h rfl]
  rfl

end

/-- The work RAM window is bank 0 below 0xD000 and the selected bank from there on. -/
theorem wramWindow_cases {a : Addr} (hlow : 0xC000 ≤ a.toNat) (hhigh : a.toNat ≤ 0xDFFF) :
    inRange a 0xC000 0xCFFF = true ∨ inRange a 0xD000 0xDFFF = true := by
  simp only [inRange_iff]
  omega

/-- Settles O47: in DMG mode the selected bank is bank 1, whose offsets go on from bank 0. -/
theorem dmgWorkRamIsFlat : Obligations.DmgWorkRamIsFlat := by
  intro s u a d hclock hdmg hlow hhigh
  obtain ⟨hread0, hreadX⟩ := workRamReads s u a hclock
  obtain ⟨hwrite0, hwriteX⟩ := workRamWrites s u a d hclock
  rcases wramWindow_cases hlow hhigh with hrange | hrange
  · obtain ⟨hlo, hhi⟩ := inRange_iff.1 hrange
    rw [decodeRead_wram0 hrange, decodeWrite_wram0 hrange]
    exact ⟨hread0 hlo hhi, hwrite0 hlo hhi⟩
  · obtain ⟨hlo, hhi⟩ := inRange_iff.1 hrange
    have hflat : (if s.cgb = true then max (s.svbk.toNat % 8) 1 else 1) * 0x1000 + a.toNat % 0x1000 =
        a.toNat - 0xC000 := by
      rw [hdmg, if_neg Bool.false_ne_true]
      omega
    rw [hflat] at hreadX hwriteX
    rw [decodeRead_wramX hrange, decodeWrite_wramX hrange]
    exact ⟨hreadX hlo hhi, hwriteX hlo hhi⟩

/-- Settles O48: the read has the offset of the write, and the array gives back the byte written there. -/
theorem workRamReadsBack : Obligations.WorkRamReadsBack := by
  intro s t t' u u' a d hinv hobserver ha hwrite hread
  have hobserver' := (exec_readObserver hwrite).trans hobserver
  have hclock : t.ClockFine u' := (decodeRead_carries t.view u' a).updateRtc ▸ clockFine_of_exec hread
  obtain ⟨hread0, hreadX⟩ := workRamReads t u' a hclock
  obtain ⟨hstore0, hstoreX, hstoreH⟩ := workRamStoreChangesOneByte s t u a d hinv
  rcases ha with ⟨hlow, hhigh⟩ | ⟨hlow, hhigh⟩
  · rcases wramWindow_cases hlow hhigh with hrange | hrange
    · obtain ⟨hlo, hhi⟩ := inRange_iff.1 hrange
      rw [decodeWrite_wram0 hrange] at hwrite
      rw [decodeRead_wram0 hrange] at hread
      have hback := hstore0 hwrite (rel a 0xC000)
      rw [if_pos rfl] at hback
      exact hback ▸ returned_of_readsAs (hread0 hlo hhi) hobserver' hread
    · obtain ⟨hlo, hhi⟩ := inRange_iff.1 hrange
      rw [decodeWrite_wramX hrange] at hwrite
      rw [decodeRead_wramX hrange] at hread
      obtain ⟨-, -, -, hsvbk, -⟩ := exec_frame hwrite
      have hback := hstoreX hwrite (wramXOffset s.cgb s.svbk a)
      rw [if_pos rfl] at hback
      have hreadsAs := hreadX hlo hhi
      rw [← wramXOffset_eq t.cgb t.svbk hlow, exec_cgb hwrite, hsvbk rfl, hback] at hreadsAs
      exact returned_of_readsAs hreadsAs hobserver' hread
  · have hrange := route_hram (inRange_iff.2 ⟨hlow, hhigh⟩)
    rw [decodeWrite_hram hrange] at hwrite
    rw [decodeRead_hram hrange] at hread
    obtain ⟨hreadsAs, -⟩ := highRamAccess t u' a d hclock hlow hhigh
    have hback := hstoreH hwrite (rel a 0xFF80)
    rw [if_pos rfl] at hback
    exact hback ▸ returned_of_readsAs hreadsAs hobserver' hread

end Sys2Proof.Machine
end

section
/-! PROOFS. The family of spec/45_bus_router_openbus_observer.md: what no access rule looks at, and with it the clock
refusal, the observers and repetition. -/

namespace Sys2Proof.Machine

/-! ## Access rules -/

/-- `s` with other observers installed and other bytes in the output ports that a transaction writes. -/
def State.withPorts (s : State) (o p : Option Nat) (v : Option Byte) (call : Option ObserverCall) : State :=
  { s with readObserver := o, writeObserver := p, returned := v, observed := call }

/-- A read rule looks at no observer and no output port, and leaves the clock to the pre-step. -/
structure ReadRule (access : State → Res Byte) : Prop where
  withPorts : ∀ s o p v call, access (s.withPorts o p v call) = access s
  noClock : ∀ s, access s ≠ .refused .hostClockBackwards

/-- A write rule that answers, answers the same with other observers and output ports, which it hands on; it leaves the
clock to the pre-step. -/
structure WriteRule (access : State → Res (State × Byte)) : Prop where
  withPorts : ∀ {s t act}, access s = .next (t, act) →
    ∀ o p v call, access (s.withPorts o p v call) = .next (t.withPorts o p v call, act)
  noClock : ∀ s, access s ≠ .refused .hostClockBackwards

section
variable {α β : Type} {s : State}

/-- The answer is not the clock refusal. -/
def NoClock (x : Res α) : Prop := x ≠ .refused .hostClockBackwards

theorem noClock_andThen {x : Res α} {f : α → Res β} (hx : NoClock x) (hf : ∀ a, NoClock (f a)) :
    NoClock (andThen x f) := by
  cases x with
  | next a => exact hf a
  | fault => simp [NoClock, andThen]
  | refused r => simpa [NoClock, andThen] using hx

theorem noClock_next (a : α) : NoClock (.next a : Res α) := by simp [NoClock]

theorem noClock_kindNotSelected : NoClock (.refused .kindNotSelected : Res α) := by simp [NoClock]

theorem noClock_readArray (n : ArrayName) (len : Nat) (m : Memory) (off : Nat) : NoClock (readArray n len m off) := by
  unfold readArray NoClock
  split <;> simp

theorem noClock_writeArray (n : ArrayName) (len : Nat) (m : Memory) (off : Nat) (v : Byte) :
    NoClock (writeArray n len m off v) := by
  unfold writeArray NoClock
  split <;> simp

theorem noClock_ite {P : Prop} [Decidable P] {x y : Res α} (hx : NoClock x) (hy : NoClock y) :
    NoClock (if P then x else y) := by
  split <;> assumption

theorem noClock_withNoCart {k : Res α} (hk : NoClock k) : NoClock (s.withNoCart k) := by
  unfold State.withNoCart
  split
  · exact hk
  · exact noClock_kindNotSelected

theorem noClock_withBasic {k : Cart → Res α} (hk : ∀ c, NoClock (k c)) : NoClock (s.withBasic k) := by
  unfold State.withBasic
  split
  · exact noClock_kindNotSelected
  · split
    · exact hk _
    · exact noClock_kindNotSelected

theorem noClock_withMbc1 {k : Cart → Mbc1 → Res α} (hk : ∀ c r, NoClock (k c r)) : NoClock (s.withMbc1 k) := by
  unfold State.withMbc1
  split
  · exact noClock_kindNotSelected
  · split
    · exact hk _ _
    · exact noClock_kindNotSelected

theorem noClock_withMbc3 {k : Cart → Mbc3 → Res α} (hk : ∀ c r, NoClock (k c r)) : NoClock (s.withMbc3 k) := by
  unfold State.withMbc3
  split
  · exact noClock_kindNotSelected
  · split
    · exact hk _ _
    · exact noClock_kindNotSelected

theorem noClock_withWindow {w : Window} {k : Cart → Mbc3 → Res α} (hk : ∀ c r, NoClock (k c r)) :
    NoClock (s.withWindow w k) :=
  noClock_withMbc3 fun c r => noClock_ite (hk c r) noClock_kindNotSelected

theorem noClock_withRtcWindow {k : Cart → Mbc3 → RtcReg → Res α} (hk : ∀ c r reg, NoClock (k c r reg)) :
    NoClock (s.withRtcWindow k) := by
  refine noClock_withMbc3 fun c r => ?_
  split
  · exact hk c r _
  · exact noClock_kindNotSelected

end

/-- Every read kind is a read transaction around a read rule. -/
theorem exec_eq_busRead {i : Instr} (hi : i.isWrite = false) :
    ∃ access, ReadRule access ∧ ∀ s, exec i s = busRead i.updateRtc i.addr access s := by
  cases i with
  | rdRomNocart | rdXramNocart =>
    exact ⟨_, ⟨fun _ _ _ _ _ => rfl, fun _ => noClock_withNoCart (noClock_next _)⟩, fun _ => rfl⟩
  | rdRomBasic | rdXramBasic =>
    exact ⟨_, ⟨fun _ _ _ _ _ => rfl, fun _ => noClock_withBasic fun _ => noClock_ite (noClock_next _)
      (noClock_next _)⟩, fun _ => rfl⟩
  | rdRom0Mbc1 | rdRomXMbc1 =>
    exact ⟨_, ⟨fun _ _ _ _ _ => rfl, fun _ => noClock_withMbc1 fun _ _ => noClock_readArray _ _ _ _⟩, fun _ => rfl⟩
  | rdXramMbc1 =>
    exact ⟨_, ⟨fun _ _ _ _ _ => rfl, fun _ => noClock_withMbc1 fun _ _ => noClock_ite (noClock_next _)
      (noClock_next _)⟩, fun _ => rfl⟩
  | rdRom0Mbc3 | rdRomXMbc3 =>
    exact ⟨_, ⟨fun _ _ _ _ _ => rfl, fun _ => noClock_withMbc3 fun _ _ => noClock_readArray _ _ _ _⟩, fun _ => rfl⟩
  | rdXramMbc3Off | rdXramMbc3Rsv =>
    exact ⟨_, ⟨fun _ _ _ _ _ => rfl, fun _ => noClock_withWindow fun _ _ => noClock_next _⟩, fun _ => rfl⟩
  | rdXramMbc3Ram =>
    refine ⟨_, ⟨fun _ _ _ _ _ => rfl, fun _ => noClock_withWindow fun _ _ => ?_⟩, fun _ => rfl⟩
    split
    · exact noClock_next _
    · exact noClock_readArray _ _ _ _
  | rdRtcMbc3 =>
    exact ⟨_, ⟨fun _ _ _ _ _ => rfl, fun _ => noClock_withRtcWindow fun _ _ _ => noClock_next _⟩, fun _ => rfl⟩
  | rdWram0 | rdWramX | rdHram =>
    exact ⟨_, ⟨fun _ _ _ _ _ => rfl, fun _ => noClock_readArray _ _ _ _⟩, fun _ => rfl⟩
  | rdFfff | rdOpen | rdSvbk => exact ⟨_, ⟨fun _ _ _ _ _ => rfl, fun _ => noClock_next _⟩, fun _ => rfl⟩
  | _ => cases hi

/-! ## Write rules -/

/-- Run where it has run before, the rule does the same again and answers the same byte. -/
def Repeats (access : State → Res (State × Byte)) : Prop :=
  ∀ (s t : State) (act : Byte), s.Inv → access s = .next (t, act) → access t = .next (t, act)

/-- Setting a byte to what it was just set to changes nothing. -/
theorem Memory.write_cons_cell {m : Memory} {i : Nat} (v : Byte) (h : ∀ c ∈ m, i < c.1) :
    write (cons i v m) i v = cons i v m := by
  by_cases hv : v = unlisted
  · cases m with
    | nil => simp [cons, hv, write]
    | cons c rest => simp [cons, hv, write, h c (by simp)]
  · simp [cons, hv, write]

theorem Memory.write_write {m : Memory} (h : wf m) (i : Nat) (v : Byte) :
    write (write m i v) i v = write m i v := by
  induction m with
  | nil => exact write_cons_cell v (by simp)
  | cons c rest ih =>
    have hhead := wf_head h
    have hwrite : write (c :: rest) i v =
        if i < c.1 then cons i v (c :: rest) else if i = c.1 then cons i v rest else c :: write rest i v := rfl
    rw [hwrite]
    split_ifs with hlt heq
    · refine write_cons_cell v fun x hx => ?_
      rcases List.mem_cons.1 hx with rfl | hx
      · exact hlt
      · exact hlt.trans (hhead x hx)
    · exact write_cons_cell v (heq ▸ hhead)
    · simp [write, hlt, heq, ih (wf_tail h)]

theorem writeRule_droppedWrite : WriteRule droppedWrite where
  withPorts h _ _ _ _ := by
    cases h
    rfl
  noClock _ := noClock_next _

theorem repeats_droppedWrite : Repeats droppedWrite := by
  intro s t act _ h
  cases h
  rfl

theorem writeRule_noCart : WriteRule fun s => s.withNoCart (droppedWrite s) where
  withPorts h o p v call := by
    obtain ⟨hc, e⟩ := withNoCart_next.1 h
    exact withNoCart_next.2 ⟨hc, writeRule_droppedWrite.withPorts e o p v call⟩
  noClock _ := noClock_withNoCart (noClock_next _)

theorem repeats_noCart : Repeats fun s => s.withNoCart (droppedWrite s) := by
  intro s t act _ h
  obtain ⟨-, e⟩ := withNoCart_next.1 h
  cases e
  exact h

theorem writeRule_basicRom : WriteRule fun s => s.withBasic fun _ => droppedWrite s where
  withPorts h o p v call := by
    obtain ⟨c, hc, hb, e⟩ := withBasic_next.1 h
    exact withBasic_next.2 ⟨c, hc, hb, writeRule_droppedWrite.withPorts e o p v call⟩
  noClock _ := noClock_withBasic fun _ => noClock_next _

theorem repeats_basicRom : Repeats fun s => s.withBasic fun _ => droppedWrite s := by
  intro s t act _ h
  obtain ⟨-, -, -, e⟩ := withBasic_next.1 h
  cases e
  exact h

theorem writeRule_window (w : Window) : WriteRule fun s => s.withWindow w fun _ _ => droppedWrite s where
  withPorts h o p v call := by
    obtain ⟨c, r, hr, hshown, e⟩ := withWindow_next.1 h
    exact withWindow_next.2 ⟨c, r, hr, hshown, writeRule_droppedWrite.withPorts e o p v call⟩
  noClock _ := noClock_withWindow fun _ _ => noClock_next _

theorem repeats_window (w : Window) : Repeats fun s => s.withWindow w fun _ _ => droppedWrite s := by
  intro s t act _ h
  obtain ⟨-, -, -, -, e⟩ := withWindow_next.1 h
  cases e
  exact h

section
variable {cmd : Command} {d : Byte}

theorem writeRule_mbc1Command {f : Mbc1 → Mbc1} {g : Mbc1 → Byte} : WriteRule (mbc1Command cmd d f g) where
  withPorts h _ _ _ _ := by
    obtain ⟨c, r, hr, rfl, e⟩ := mbc1Command_next.1 h
    exact mbc1Command_next.2 ⟨c, r, hr, rfl, e⟩
  noClock _ := noClock_withMbc1 fun _ _ => noClock_next _

theorem repeats_mbc1Command {f : Mbc1 → Mbc1} {g : Mbc1 → Byte} (hf : ∀ r, f (f r) = f r) :
    Repeats (mbc1Command cmd d f g) := by
  intro s t act _ h
  obtain ⟨c, r, hr, rfl, rfl⟩ := mbc1Command_next.1 h
  exact mbc1Command_next.2 ⟨{ c with ctrl := .mbc1 (f r) }, f r, ⟨rfl, rfl⟩, by rw [hf]; rfl, by rw [hf]⟩

theorem writeRule_mbc3Command {f : Mbc3 → Mbc3} {g : Mbc3 → Byte} : WriteRule (mbc3Command cmd d f g) where
  withPorts h _ _ _ _ := by
    obtain ⟨c, r, hr, rfl, e⟩ := mbc3Command_next.1 h
    exact mbc3Command_next.2 ⟨c, r, hr, rfl, e⟩
  noClock _ := noClock_withMbc3 fun _ _ => noClock_next _

theorem repeats_mbc3Command {f : Mbc3 → Mbc3} {g : Mbc3 → Byte} (hf : ∀ r, f (f r) = f r) :
    Repeats (mbc3Command cmd d f g) := by
  intro s t act _ h
  obtain ⟨c, r, hr, rfl, rfl⟩ := mbc3Command_next.1 h
  exact mbc3Command_next.2 ⟨{ c with ctrl := .mbc3 (f r) }, f r, hasMbc3_mbc3Set s c _, by rw [hf]; rfl, by rw [hf]⟩

theorem rtc_set_set (r : Rtc) (reg : RtcReg) (v : Byte) : (r.set reg v).set reg v = r.set reg v := by
  cases reg <;> rfl

theorem writeRule_rtcWrite (reg : RtcReg) : WriteRule (rtcWrite reg d) where
  withPorts h _ _ _ _ := by
    obtain ⟨c, r, hr, hshown, rfl, e⟩ := rtcWrite_next.1 h
    exact rtcWrite_next.2 ⟨c, r, hr, hshown, rfl, e⟩
  noClock _ := noClock_withWindow fun _ _ => noClock_next _

theorem repeats_rtcWrite (reg : RtcReg) : Repeats (rtcWrite reg d) := by
  intro s t act _ h
  obtain ⟨c, r, hr, hshown, rfl, rfl⟩ := rtcWrite_next.1 h
  exact rtcWrite_next.2 ⟨_, _, hasMbc3_mbc3Set s c _, hshown, by rw [rtc_set_set]; rfl, rfl⟩

end

section
variable {a : Addr} {d : Byte}

theorem ite_next {α : Type} {P : Prop} [Decidable P] {x y b : α} :
    (if P then .next x else .next y : Res α) = .next b ↔ (P ∧ b = x) ∨ (¬ P ∧ b = y) := by
  split_ifs with h <;> simp [h, eq_comm]

/-- A store to an array, and what is made of the array stored to. -/
theorem storeArray_next {α : Type} {n : ArrayName} {len off : Nat} {m : Memory} {v : Byte} {f : Memory → α} {b : α} :
    (andThen (writeArray n len m off v) fun m' => .next (f m')) = .next b ↔
      off < len ∧ b = f (Memory.write m off v) := by
  constructor
  · intro h
    obtain ⟨m', hm, e⟩ := andThen_next.1 h
    obtain ⟨hin, rfl⟩ := writeArray_next.1 hm
    cases e
    exact ⟨hin, rfl⟩
  · rintro ⟨hin, rfl⟩
    exact andThen_next.2 ⟨_, writeArray_next.2 ⟨hin, rfl⟩, rfl⟩

/-- Storing to external RAM what was just stored there changes nothing. -/
theorem setXram_write_again {s : State} {c : Cart} (h : s.Inv) (hc : s.cart = some c) (off : Nat) (d : Byte) :
    (s.setXram c (Memory.write c.xram off d)).setXram { c with xram := Memory.write c.xram off d }
      (Memory.write (Memory.write c.xram off d) off d) = s.setXram c (Memory.write c.xram off d) := by
  obtain ⟨-, -, -, -, ⟨hwf, -⟩, -⟩ := cart_legal_iff.1 (cart_legal_of_inv h hc)
  rw [Memory.write_write hwf]
  rfl

/-- The store rule of a Basic cartridge (spec/40_cartridge_common_basic.md R141). -/
def basicXramStore (a : Addr) (d : Byte) (s : State) : Res (State × Byte) :=
  s.withBasic fun c =>
    if rel a 0xA000 < c.header.xramLen then .next (s.setXram c (Memory.write c.xram (rel a 0xA000) d), d)
    else droppedWrite s

theorem basicXramStore_next {s t : State} {act : Byte} :
    basicXramStore a d s = .next (t, act) ↔
      ∃ c, s.cart = some c ∧ c.ctrl = .basic ∧
        ((rel a 0xA000 < c.header.xramLen ∧ t = s.setXram c (Memory.write c.xram (rel a 0xA000) d) ∧ act = d) ∨
          (¬ rel a 0xA000 < c.header.xramLen ∧ t = s ∧ act = openBus)) := by
  simp only [basicXramStore, withBasic_next, droppedWrite, ite_next, Prod.mk.injEq]

theorem writeRule_basicXramStore : WriteRule (basicXramStore a d) where
  withPorts h _ _ _ _ := by
    obtain ⟨c, hc, hb, ⟨hin, rfl, e⟩ | ⟨hout, rfl, e⟩⟩ := basicXramStore_next.1 h
    · exact basicXramStore_next.2 ⟨c, hc, hb, .inl ⟨hin, rfl, e⟩⟩
    · exact basicXramStore_next.2 ⟨c, hc, hb, .inr ⟨hout, rfl, e⟩⟩
  noClock _ := noClock_withBasic fun _ => noClock_ite (noClock_next _) (noClock_next _)

theorem repeats_basicXramStore : Repeats (basicXramStore a d) := by
  intro s t act hinv h
  obtain ⟨c, hc, hb, ⟨hin, rfl, e⟩ | ⟨hout, rfl, e⟩⟩ := basicXramStore_next.1 h
  · exact basicXramStore_next.2 ⟨_, rfl, hb, .inl ⟨hin, (setXram_write_again hinv hc _ d).symm, e⟩⟩
  · exact h

/-- The store rule of an MBC1 cartridge (spec/41_mbc1.md R163). -/
def mbc1XramStore (a : Addr) (d : Byte) (s : State) : Res (State × Byte) :=
  s.withMbc1 fun c r =>
    if r.ramEnable ∧ mbc1RamOffset r c.header.xramLen a < c.header.xramLen then
      .next (s.setXram c (Memory.write c.xram (mbc1RamOffset r c.header.xramLen a) d), d)
    else droppedWrite s

theorem mbc1XramStore_next {s t : State} {act : Byte} :
    mbc1XramStore a d s = .next (t, act) ↔
      ∃ c r, s.HasMbc1 c r ∧
        (((r.ramEnable ∧ mbc1RamOffset r c.header.xramLen a < c.header.xramLen) ∧
            t = s.setXram c (Memory.write c.xram (mbc1RamOffset r c.header.xramLen a) d) ∧ act = d) ∨
          (¬ (r.ramEnable ∧ mbc1RamOffset r c.header.xramLen a < c.header.xramLen) ∧ t = s ∧ act = openBus)) := by
  simp only [mbc1XramStore, withMbc1_next, droppedWrite, ite_next, Prod.mk.injEq]

theorem writeRule_mbc1XramStore : WriteRule (mbc1XramStore a d) where
  withPorts h _ _ _ _ := by
    obtain ⟨c, r, hr, ⟨hin, rfl, e⟩ | ⟨hout, rfl, e⟩⟩ := mbc1XramStore_next.1 h
    · exact mbc1XramStore_next.2 ⟨c, r, hr, .inl ⟨hin, rfl, e⟩⟩
    · exact mbc1XramStore_next.2 ⟨c, r, hr, .inr ⟨hout, rfl, e⟩⟩
  noClock _ := noClock_withMbc1 fun _ _ => noClock_ite (noClock_next _) (noClock_next _)

theorem repeats_mbc1XramStore : Repeats (mbc1XramStore a d) := by
  intro s t act hinv h
  obtain ⟨c, r, ⟨hc, hctrl⟩, ⟨hin, rfl, e⟩ | ⟨hout, rfl, e⟩⟩ := mbc1XramStore_next.1 h
  · exact mbc1XramStore_next.2 ⟨_, r, ⟨rfl, hctrl⟩, .inl ⟨hin, (setXram_write_again hinv hc _ d).symm, e⟩⟩
  · exact h

/-- The store rule of an MBC3 cartridge (spec/42_mbc3.md R183). -/
def mbc3XramStore (a : Addr) (d : Byte) (s : State) : Res (State × Byte) :=
  s.withWindow .ram (mbc3RamStore a d s)

theorem mbc3XramStore_next {s t : State} {act : Byte} :
    mbc3XramStore a d s = .next (t, act) ↔
      ∃ c r, s.HasMbc3 c r ∧ r.window = .ram ∧
        ((mbc3RamOffset r c.header.xramBanks a = none ∧ t = s ∧ act = openBus) ∨
          ∃ off, mbc3RamOffset r c.header.xramBanks a = some off ∧ off < c.header.xramLen ∧
            t = s.setXram c (Memory.write c.xram off d) ∧ act = d) := by
  simp only [mbc3XramStore, withWindow_next, mbc3RamStore, droppedWrite]
  refine exists_congr fun c => exists_congr fun r => and_congr_right fun _ => and_congr_right fun _ => ?_
  cases mbc3RamOffset r c.header.xramBanks a with
  | none => simp [eq_comm]
  | some off => simp [storeArray_next]

theorem writeRule_mbc3XramStore : WriteRule (mbc3XramStore a d) where
  withPorts h _ _ _ _ := by
    obtain ⟨c, r, hr, hshown, ⟨hnone, rfl, e⟩ | ⟨off, hoff, hin, rfl, e⟩⟩ := mbc3XramStore_next.1 h
    · exact mbc3XramStore_next.2 ⟨c, r, hr, hshown, .inl ⟨hnone, rfl, e⟩⟩
    · exact mbc3XramStore_next.2 ⟨c, r, hr, hshown, .inr ⟨off, hoff, hin, rfl, e⟩⟩
  noClock s := by
    refine noClock_withWindow fun c r => ?_
    unfold mbc3RamStore
    split
    · exact noClock_next _
    · exact noClock_andThen (noClock_writeArray _ _ _ _ _) fun _ => noClock_next _

theorem repeats_mbc3XramStore : Repeats (mbc3XramStore a d) := by
  intro s t act hinv h
  obtain ⟨c, r, ⟨hc, hctrl⟩, hshown, ⟨hnone, rfl, e⟩ | ⟨off, hoff, hin, rfl, e⟩⟩ := mbc3XramStore_next.1 h
  · exact h
  · exact mbc3XramStore_next.2 ⟨_, r, ⟨rfl, hctrl⟩, hshown,
      .inr ⟨off, hoff, hin, (setXram_write_again hinv hc _ d).symm, e⟩⟩

/-- The store rule of work RAM, at an offset the state gives. -/
theorem wramStore_next_iff {off : Nat} {s t : State} {act : Byte} :
    wramStore off d s = .next (t, act) ↔
      off < wramLen s.cgb ∧ t = { s with wram := Memory.write s.wram off d } ∧ act = d := by
  simp only [wramStore, storeArray_next, Prod.mk.injEq]

theorem writeRule_wramStore {off : State → Nat} (hports : ∀ s o p v call, off (s.withPorts o p v call) = off s) :
    WriteRule fun s => wramStore (off s) d s where
  withPorts {s t act} h o p v call := by
    obtain ⟨hin, rfl, rfl⟩ := wramStore_next_iff.1 h
    rw [hports]
    exact wramStore_next_iff.2 ⟨hin, rfl, rfl⟩
  noClock _ := noClock_andThen (noClock_writeArray _ _ _ _ _) fun _ => noClock_next _

theorem repeats_wramStore {off : State → Nat} (hkept : ∀ s m, off { s with wram := m } = off s) :
    Repeats fun s => wramStore (off s) d s := by
  intro s t act hinv h
  obtain ⟨-, -, ⟨hwf, -⟩, -⟩ := hinv
  obtain ⟨hin, rfl, rfl⟩ := wramStore_next_iff.1 h
  dsimp only
  rw [hkept]
  exact wramStore_next_iff.2 ⟨hin, by rw [Memory.write_write hwf], rfl⟩

/-- The store rule of high RAM (spec/44_memory_wram_hram_svbk.md R227). -/
def hramStore (a : Addr) (d : Byte) (s : State) : Res (State × Byte) :=
  andThen (writeArray .hram hramLen s.hram (rel a 0xFF80) d) fun m => .next ({ s with hram := m }, d)

theorem hramStore_next {s t : State} {act : Byte} :
    hramStore a d s = .next (t, act) ↔
      rel a 0xFF80 < hramLen ∧ t = { s with hram := Memory.write s.hram (rel a 0xFF80) d } ∧ act = d := by
  simp only [hramStore, storeArray_next, Prod.mk.injEq]

theorem writeRule_hramStore : WriteRule (hramStore a d) where
  withPorts h _ _ _ _ := by
    obtain ⟨hin, rfl, e⟩ := hramStore_next.1 h
    exact hramStore_next.2 ⟨hin, rfl, e⟩
  noClock _ := noClock_andThen (noClock_writeArray _ _ _ _ _) fun _ => noClock_next _

theorem repeats_hramStore : Repeats (hramStore a d) := by
  intro s t act hinv h
  obtain ⟨-, -, -, ⟨hwf, -⟩⟩ := hinv
  obtain ⟨hin, rfl, e⟩ := hramStore_next.1 h
  exact hramStore_next.2 ⟨hin, by rw [Memory.write_write hwf], e⟩

/-- The store rule of SVBK (spec/44_memory_wram_hram_svbk.md R229). -/
def svbkStore (d : Byte) (s : State) : Res (State × Byte) :=
  if s.cgb then .next ({ s with svbk := svbkWrite s.svbk d }, svbkRead (svbkWrite s.svbk d)) else droppedWrite s

theorem svbkStore_of_cgb {s : State} (h : s.cgb = true) :
    svbkStore d s = .next ({ s with svbk := svbkWrite s.svbk d }, svbkRead (svbkWrite s.svbk d)) := if_pos h

theorem svbkStore_of_dmg {s : State} (h : ¬ s.cgb = true) : svbkStore d s = .next (s, openBus) := if_neg h

theorem svbkWrite_svbkWrite (svbk d : Byte) : svbkWrite (svbkWrite svbk d) d = svbkWrite svbk d := by
  ext i hi
  simp only [svbkWrite, BitVec.getElem_or, BitVec.getElem_and]
  interval_cases i <;> simp

theorem writeRule_svbkStore : WriteRule (svbkStore d) where
  withPorts {s t act} h o p v call := by
    by_cases hcgb : s.cgb = true
    · rw [svbkStore_of_cgb hcgb] at h
      cases h
      exact svbkStore_of_cgb (s := s.withPorts o p v call) hcgb
    · rw [svbkStore_of_dmg hcgb] at h
      cases h
      exact svbkStore_of_dmg (s := s.withPorts o p v call) hcgb
  noClock _ := noClock_ite (noClock_next _) (noClock_next _)

theorem repeats_svbkStore : Repeats (svbkStore d) := by
  intro s t act _ h
  by_cases hcgb : s.cgb = true
  · rw [svbkStore_of_cgb hcgb] at h
    cases h
    have hcgb' : State.cgb { s with svbk := svbkWrite s.svbk d } = true := hcgb
    rw [svbkStore_of_cgb hcgb', svbkWrite_svbkWrite]
  · rw [svbkStore_of_dmg hcgb] at h
    cases h
    exact svbkStore_of_dmg hcgb

end

/-- Every write kind is a write transaction around a write rule, which repeats unless it is a latch write. -/
theorem exec_eq_busWrite {i : Instr} (hi : i.isWrite = true) :
    ∃ access, WriteRule access ∧ (isLatchWrite i = false → Repeats access) ∧
      ∀ s, exec i s = busWrite i.updateRtc i.addr i.data access s := by
  cases i with
  | wrRomNocart | wrXramNocart => exact ⟨_, writeRule_noCart, fun _ => repeats_noCart, fun _ => rfl⟩
  | wrRomBasic => exact ⟨_, writeRule_basicRom, fun _ => repeats_basicRom, fun _ => rfl⟩
  | wrRamenMbc1 | wrRombMbc1 | wrRambMbc1 | wrModeMbc1 =>
    refine ⟨_, writeRule_mbc1Command, ?_, fun _ => rfl⟩
    exact fun _ => repeats_mbc1Command fun _ => rfl
  | wrRamenMbc3 | wrRombMbc3 | wrSelMbc3 =>
    refine ⟨_, writeRule_mbc3Command, ?_, fun _ => rfl⟩
    exact fun _ => repeats_mbc3Command fun _ => rfl
  | wrLatch0Mbc3 | wrLatch1Mbc3 | wrLatchXMbc3 =>
    exact ⟨_, writeRule_mbc3Command, nofun, fun _ => rfl⟩
  | wrXramBasic => exact ⟨_, writeRule_basicXramStore, fun _ => repeats_basicXramStore, fun _ => rfl⟩
  | wrXramMbc1 => exact ⟨_, writeRule_mbc1XramStore, fun _ => repeats_mbc1XramStore, fun _ => rfl⟩
  | wrXramMbc3Ram => exact ⟨_, writeRule_mbc3XramStore, fun _ => repeats_mbc3XramStore, fun _ => rfl⟩
  | wrXramMbc3Off | wrXramMbc3Rsv => exact ⟨_, writeRule_window _, fun _ => repeats_window _, fun _ => rfl⟩
  | wrRtcSMbc3 | wrRtcMMbc3 | wrRtcHMbc3 | wrRtcDlMbc3 | wrRtcDhMbc3 =>
    exact ⟨_, writeRule_rtcWrite _, fun _ => repeats_rtcWrite _, fun _ => rfl⟩
  | wrWram0 u a =>
    exact ⟨_, writeRule_wramStore (off := fun _ => rel a 0xC000) fun _ _ _ _ _ => rfl,
      fun _ => repeats_wramStore fun _ _ => rfl, fun _ => rfl⟩
  | wrWramX u a =>
    exact ⟨_, writeRule_wramStore (off := fun s => wramXOffset s.cgb s.svbk a) fun _ _ _ _ _ => rfl,
      fun _ => repeats_wramStore fun _ _ => rfl, fun _ => rfl⟩
  | wrHram => exact ⟨_, writeRule_hramStore, fun _ => repeats_hramStore, fun _ => rfl⟩
  | wrSvbk => exact ⟨_, writeRule_svbkStore, fun _ => repeats_svbkStore, fun _ => rfl⟩
  | wrFfff | wrOpen => exact ⟨_, writeRule_droppedWrite, fun _ => repeats_droppedWrite, fun _ => rfl⟩
  | _ => cases hi

end Sys2Proof.Machine
end

section
/-! PROOFS. The clock refusal, the observers, repetition, and that every transaction answers. -/

namespace Sys2Proof.Machine

/-! ## The clock refusal -/

theorem clockOk_eq_false_iff {s : State} {u : Bool} :
    s.clockOk u = false ↔ u = true ∧ ∃ c r, s.HasMbc3 c r ∧ s.now < r.lastUpdateTime := by
  unfold State.clockOk State.HasMbc3
  cases s.cart with
  | none => simp
  | some c => cases hk : c.ctrl <;> simp [hk]

/-- A transaction is refused for its clock sample exactly by the pre-step, if nothing after it refuses so. -/
theorem transaction_refused_iff {u : Bool} {s : State} {f : State → Res State} (hf : ∀ t, NoClock (f t)) :
    andThen (prestep u s) f = .refused .hostClockBackwards ↔ s.clockOk u = false := by
  cases hclock : s.clockOk u with
  | false => simp [prestep, hclock, andThen]
  | true =>
    have hrest : NoClock (andThen (prestep u s) f) := by
      rw [prestep, if_pos hclock]
      exact noClock_andThen (noClock_next _) hf
    exact iff_of_false hrest (by decide)

/-- Settles O11: the pre-step refuses exactly then, and no access rule refuses so. -/
theorem backwardsClockIsRefused : Obligations.BackwardsClockIsRefused := by
  intro i s
  rw [← clockOk_eq_false_iff]
  cases hi : i.isWrite with
  | false =>
    obtain ⟨access, hrule, hexec⟩ := exec_eq_busRead hi
    rw [hexec]
    exact transaction_refused_iff fun _ => noClock_andThen (hrule.noClock _) fun _ => noClock_next _
  | true =>
    obtain ⟨access, hrule, -, hexec⟩ := exec_eq_busWrite hi
    rw [hexec]
    exact transaction_refused_iff fun _ => noClock_andThen (hrule.noClock _) fun _ => noClock_next _

/-! ## Observers -/

/-- Settles O52: the last thing a transaction does is to call the observer of its kind. -/
theorem observerSeesEveryTransaction : Obligations.ObserverSeesEveryTransaction := by
  intro i s t h
  constructor
  · intro hi
    obtain ⟨-, v, rfl⟩ := exec_read_next hi h
    exact ⟨v, fun hnone => by simp [State.observedValue, hnone], fun o ho => by simp [State.observedValue, ho]⟩
  · intro hi
    obtain ⟨-, -, -, -, -, hobserver, -⟩ := exec_frame h
    obtain ⟨-, s2, act, -, rfl⟩ := exec_write_next hi h
    have hobserver : s2.writeObserver = s.writeObserver := hobserver
    exact ⟨act, rfl, fun hnone => by simp [hobserver, hnone], fun o ho => by simp [hobserver, ho]⟩

theorem prestepped_withPorts (s : State) (u : Bool) (o p : Option Nat) (v : Option Byte)
    (call : Option ObserverCall) :
    (s.withPorts o p v call).prestepped u = (s.prestepped u).withPorts o p v call := by
  rcases s with ⟨_ | ⟨_, _, _, _ | _ | _⟩, _⟩ <;> rfl

/-- Whichever observers are installed and whatever the output ports hold, a transaction leaves the same block. -/
theorem exec_withPorts {i : Instr} {s t : State} (h : exec i s = .next t) (o p : Option Nat) (v : Option Byte)
    (call : Option ObserverCall) :
    ∃ v' call', exec i (s.withPorts o p v call) = .next (t.withPorts o p v' call') := by
  cases hi : i.isWrite with
  | false =>
    obtain ⟨access, hrule, hexec⟩ := exec_eq_busRead hi
    rw [hexec] at h ⊢
    obtain ⟨hclock, w, haccess, rfl⟩ := busRead_next.1 h
    refine ⟨some (((s.prestepped i.updateRtc).withPorts o p v call).observedValue i.addr w),
      o.map fun o => .onRead o i.addr w, busRead_next.2 ⟨hclock, w, ?_, ?_⟩⟩
    · rw [prestepped_withPorts, hrule.withPorts, haccess]
    · rw [prestepped_withPorts]
      rfl
  | true =>
    obtain ⟨access, hrule, -, hexec⟩ := exec_eq_busWrite hi
    rw [hexec] at h ⊢
    obtain ⟨hclock, s2, act, haccess, rfl⟩ := busWrite_next.1 h
    refine ⟨_, _, busWrite_next.2 ⟨hclock, s2.withPorts o p v call, act, ?_, rfl⟩⟩
    rw [prestepped_withPorts]
    exact hrule.withPorts haccess o p v call

/-- Settles O53: the access rules look at no observer. -/
theorem observersChangeNoState : Obligations.ObserversChangeNoState :=
  fun _ s _ o p h => exec_withPorts h o p s.returned s.observed

/-! ## Repetition -/

theorem clockOk_of_noAdvance {s : State} {u : Bool} (h : u = false ∨ s.mbc3? = none) : s.clockOk u = true := by
  rcases h with rfl | hnone
  · by_contra hclock
    simp [clockOk_eq_false_iff] at hclock
  · exact clockOk_of_noMbc3 hnone u

/-- Settles O51: a read finds the block it left, and a write rule that has run repeats. -/
theorem repeatingChangesNothing : Obligations.RepeatingChangesNothing := by
  intro i s t hinv hlatch hno h
  have hno' : i.updateRtc = false ∨ t.mbc3? = none := hno.imp_right fun hnone => exec_mbc3?_none hnone h
  cases hi : i.isWrite with
  | false =>
    obtain ⟨access, hrule, hexec⟩ := exec_eq_busRead hi
    rw [hexec] at h ⊢
    obtain ⟨-, v, haccess, ht⟩ := busRead_next.1 h
    rw [prestepped_of_noAdvance hno] at haccess ht
    refine busRead_next.2 ⟨clockOk_of_noAdvance hno', v, ?_, ?_⟩
    · rw [prestepped_of_noAdvance hno', ht]
      exact (hrule.withPorts s s.readObserver s.writeObserver _ _).trans haccess
    · rw [prestepped_of_noAdvance hno', ht]
      rfl
  | true =>
    obtain ⟨access, hrule, hrepeats, hexec⟩ := exec_eq_busWrite hi
    rw [hexec] at h ⊢
    obtain ⟨-, s2, act, haccess, ht⟩ := busWrite_next.1 h
    rw [prestepped_of_noAdvance hno] at haccess
    have hagain := hrepeats hlatch s s2 act hinv haccess
    refine busWrite_next.2 ⟨clockOk_of_noAdvance hno', t, act, ?_, ?_⟩
    · rw [prestepped_of_noAdvance hno', ht]
      exact hrule.withPorts hagain s2.readObserver s2.writeObserver _ _
    · rw [ht]
      rfl

/-! ## Every transaction answers -/

theorem view_eq_noCart {s : State} (h : s.view = .noCart) : s.cart = none := by
  unfold State.view at h
  split at h
  · assumption
  · split at h <;> cases h

theorem view_eq_basic {s : State} (h : s.view = .basic) : ∃ c, s.cart = some c ∧ c.ctrl = .basic := by
  unfold State.view at h
  split at h
  · cases h
  · rename_i c hc
    split at h
    · exact ⟨c, hc, by assumption⟩
    all_goals cases h

theorem view_eq_mbc1 {s : State} (h : s.view = .mbc1) : ∃ c r, s.HasMbc1 c r := by
  unfold State.view at h
  split at h
  · cases h
  · rename_i c hc
    split at h
    case h_2 r hr => exact ⟨c, r, hc, hr⟩
    all_goals cases h

theorem view_eq_mbc3 {s : State} {gate : Bool} {sel : BitVec 4} (h : s.view = .mbc3 gate sel) :
    ∃ c r, s.HasMbc3 c r ∧ r.ramTimerEnable = gate ∧ r.sel = sel := by
  unfold State.view at h
  split at h
  · cases h
  · rename_i c hc
    split at h
    case h_3 r hr =>
      cases h
      exact ⟨c, r, ⟨hc, hr⟩, rfl, rfl⟩
    all_goals cases h

theorem hasMbc3_of_isMbc3 {s : State} (h : isMbc3 s.view = true) : ∃ c r, s.HasMbc3 c r := by
  obtain ⟨gate, sel, hv⟩ := isMbc3_iff.1 h
  obtain ⟨c, r, hr, -⟩ := view_eq_mbc3 hv
  exact ⟨c, r, hr⟩

theorem hasMbc3_of_viewWindow {s : State} {w : Window} (h : viewWindow s.view = some w) :
    ∃ c r, s.HasMbc3 c r ∧ r.window = w := by
  obtain ⟨gate, sel, hv, hshown⟩ := viewWindow_eq_some.1 h
  obtain ⟨c, r, hr, rfl, rfl⟩ := view_eq_mbc3 hv
  exact ⟨c, r, hr, hshown⟩

/-- The kind answers a next state and returns a byte. -/
def Answers (i : Instr) (s : State) : Prop := ∃ t v, exec i s = .next t ∧ t.returned = some v

theorem answers_of_readsAs {i : Instr} {s t : State} {a : Addr} {v : Byte} (h : ReadsAs i s t a v) : Answers i s :=
  ⟨_, _, h, rfl⟩

theorem answers_of_writesAs {i : Instr} {s t : State} {a : Addr} {d act : Byte} (h : WritesAs i s t a d act) :
    Answers i s :=
  ⟨_, _, h, rfl⟩

/-- The latch state is one bit. -/
theorem latchState_cases (b : BitVec 1) : b = 1#1 ∨ b = 0#1 := by
  have h := b.isLt
  rcases (by omega : b.toNat = 1 ∨ b.toNat = 0) with hb | hb
  · exact .inl (BitVec.eq_of_toNat_eq hb)
  · exact .inr (BitVec.eq_of_toNat_eq hb)

/-- A well-formed kind answers where it applies, if its advance has an allowed clock sample. -/
theorem answers_of_applies {i : Instr} {s : State} (hwf : i.wf = true) (happ : i.applies s.view = true)
    (hclock : s.ClockFine i.updateRtc) : Answers i s := by
  cases i with
  | rdRomNocart u a =>
    obtain ⟨h, -, -, -⟩ := noCartridgeIsOpenBus s u a 0x00#8 (view_eq_noCart (beq_iff_eq.1 happ))
    exact answers_of_readsAs h
  | wrRomNocart u a d =>
    obtain ⟨-, h, -, -⟩ := noCartridgeIsOpenBus s u a d (view_eq_noCart (beq_iff_eq.1 happ))
    exact answers_of_writesAs h
  | rdXramNocart u a =>
    obtain ⟨-, -, h, -⟩ := noCartridgeIsOpenBus s u a 0x00#8 (view_eq_noCart (beq_iff_eq.1 happ))
    exact answers_of_readsAs h
  | wrXramNocart u a d =>
    obtain ⟨-, -, -, h⟩ := noCartridgeIsOpenBus s u a d (view_eq_noCart (beq_iff_eq.1 happ))
    exact answers_of_writesAs h
  | rdRomBasic u a =>
    obtain ⟨c, hc, hb⟩ := view_eq_basic (beq_iff_eq.1 happ)
    obtain ⟨h, -⟩ := basicRomWindow s c u a 0x00#8 hc hb
    exact answers_of_readsAs h
  | wrRomBasic u a d =>
    obtain ⟨c, hc, hb⟩ := view_eq_basic (beq_iff_eq.1 happ)
    obtain ⟨-, h⟩ := basicRomWindow s c u a d hc hb
    exact answers_of_writesAs h
  | rdXramBasic u a =>
    obtain ⟨c, hc, hb⟩ := view_eq_basic (beq_iff_eq.1 happ)
    obtain ⟨hin, hout⟩ := basicXramWindow s c u a 0x00#8 hc hb
    rcases Nat.lt_or_ge (a.toNat - 0xA000) c.header.xramLen with h | h
    · exact answers_of_readsAs (hin h).1
    · exact answers_of_readsAs (hout h).1
  | wrXramBasic u a d =>
    obtain ⟨c, hc, hb⟩ := view_eq_basic (beq_iff_eq.1 happ)
    obtain ⟨hin, hout⟩ := basicXramWindow s c u a d hc hb
    rcases Nat.lt_or_ge (a.toNat - 0xA000) c.header.xramLen with h | h
    · exact answers_of_writesAs (hin h).2
    · exact answers_of_writesAs (hout h).2
  | rdRom0Mbc1 u a =>
    obtain ⟨c, r, hr⟩ := view_eq_mbc1 (beq_iff_eq.1 happ)
    obtain ⟨h, -⟩ := mbc1RomBanks s c r u a hr
    exact answers_of_readsAs h
  | rdRomXMbc1 u a =>
    obtain ⟨c, r, hr⟩ := view_eq_mbc1 (beq_iff_eq.1 happ)
    obtain ⟨-, h⟩ := mbc1RomBanks s c r u a hr
    exact answers_of_readsAs h
  | wrRamenMbc1 u a d =>
    obtain ⟨c, r, hr⟩ := view_eq_mbc1 (beq_iff_eq.1 happ)
    obtain ⟨h, -, -, -⟩ := mbc1CommandsSetOneRegister s c r u a d hr
    exact answers_of_writesAs h
  | wrRombMbc1 u a d =>
    obtain ⟨c, r, hr⟩ := view_eq_mbc1 (beq_iff_eq.1 happ)
    obtain ⟨-, h, -, -⟩ := mbc1CommandsSetOneRegister s c r u a d hr
    exact answers_of_writesAs h
  | wrRambMbc1 u a d =>
    obtain ⟨c, r, hr⟩ := view_eq_mbc1 (beq_iff_eq.1 happ)
    obtain ⟨-, -, h, -⟩ := mbc1CommandsSetOneRegister s c r u a d hr
    exact answers_of_writesAs h
  | wrModeMbc1 u a d =>
    obtain ⟨c, r, hr⟩ := view_eq_mbc1 (beq_iff_eq.1 happ)
    obtain ⟨-, -, -, h⟩ := mbc1CommandsSetOneRegister s c r u a d hr
    exact answers_of_writesAs h
  | rdXramMbc1 u a =>
    obtain ⟨c, r, hr⟩ := view_eq_mbc1 (beq_iff_eq.1 happ)
    obtain ⟨hlo, hhi⟩ := inRange_iff.1 hwf
    obtain ⟨hclosed, hopen⟩ := mbc1XramWindow s c r u a 0x00#8 _ hr hlo hhi rfl
    by_cases h : r.ramEnable = false ∨ c.header.xramLen = 0
    · exact answers_of_readsAs (hclosed h).1
    · obtain ⟨hgate, hram⟩ := not_or.1 h
      obtain ⟨-, h, -⟩ := hopen (by simpa using hgate) hram
      exact answers_of_readsAs h
  | wrXramMbc1 u a d =>
    obtain ⟨c, r, hr⟩ := view_eq_mbc1 (beq_iff_eq.1 happ)
    obtain ⟨hlo, hhi⟩ := inRange_iff.1 hwf
    obtain ⟨hclosed, hopen⟩ := mbc1XramWindow s c r u a d _ hr hlo hhi rfl
    by_cases h : r.ramEnable = false ∨ c.header.xramLen = 0
    · exact answers_of_writesAs (hclosed h).2
    · obtain ⟨hgate, hram⟩ := not_or.1 h
      obtain ⟨-, -, h⟩ := hopen (by simpa using hgate) hram
      exact answers_of_writesAs h
  | rdRom0Mbc3 u a =>
    obtain ⟨c, r, hr⟩ := hasMbc3_of_isMbc3 happ
    obtain ⟨h, -⟩ := mbc3RomBanks s c r _ u a hr hclock rfl
    exact answers_of_readsAs (h (inRange_iff.1 hwf).2)
  | rdRomXMbc3 u a =>
    obtain ⟨c, r, hr⟩ := hasMbc3_of_isMbc3 happ
    obtain ⟨-, h⟩ := mbc3RomBanks s c r _ u a hr hclock rfl
    exact answers_of_readsAs h
  | wrRamenMbc3 u a d =>
    obtain ⟨c, r, hr⟩ := hasMbc3_of_isMbc3 happ
    obtain ⟨h, -, -⟩ := mbc3CommandsSetOneRegister s c r _ u a d hr hclock rfl
    exact answers_of_writesAs h
  | wrRombMbc3 u a d =>
    obtain ⟨c, r, hr⟩ := hasMbc3_of_isMbc3 happ
    obtain ⟨-, h, -⟩ := mbc3CommandsSetOneRegister s c r _ u a d hr hclock rfl
    exact answers_of_writesAs h
  | wrSelMbc3 u a d =>
    obtain ⟨c, r, hr⟩ := hasMbc3_of_isMbc3 happ
    obtain ⟨-, -, h⟩ := mbc3CommandsSetOneRegister s c r _ u a d hr hclock rfl
    exact answers_of_writesAs h
  | wrLatch0Mbc3 u a =>
    obtain ⟨c, r, hr⟩ := hasMbc3_of_isMbc3 happ
    obtain ⟨h, -, -, -⟩ := mbc3LatchMachine s c r _ u a 0x00#8 hr hclock rfl
    exact answers_of_writesAs h
  | wrLatch1Mbc3 u a =>
    obtain ⟨c, r, hr⟩ := hasMbc3_of_isMbc3 happ
    obtain ⟨-, harmed, hidle, -⟩ := mbc3LatchMachine s c r _ u a 0x01#8 hr hclock rfl
    rcases latchState_cases r.latchState with h | h
    · exact answers_of_writesAs (harmed h)
    · exact answers_of_writesAs (hidle h)
  | wrLatchXMbc3 u a d =>
    obtain ⟨c, r, hr⟩ := hasMbc3_of_isMbc3 happ
    obtain ⟨-, -, -, h⟩ := mbc3LatchMachine s c r _ u a d hr hclock rfl
    exact answers_of_writesAs h
  | rdXramMbc3Off u a | rdXramMbc3Rsv u a =>
    obtain ⟨c, r, hr, hshown⟩ := hasMbc3_of_viewWindow (beq_iff_eq.1 happ)
    exact answers_of_readsAs (readsAs_of_window hr hclock hshown rfl rfl)
  | wrXramMbc3Off u a d | wrXramMbc3Rsv u a d =>
    obtain ⟨c, r, hr, hshown⟩ := hasMbc3_of_viewWindow (beq_iff_eq.1 happ)
    exact answers_of_writesAs (writesAs_of_window (k := fun t _ _ => droppedWrite t) hr hclock hshown rfl rfl rfl)
  | rdXramMbc3Ram u a =>
    obtain ⟨c, r, hr, hshown⟩ := hasMbc3_of_viewWindow (beq_iff_eq.1 happ)
    by_cases hram : c.header.xramLen = 0
    · exact answers_of_readsAs (mbc3RamWindow_of_noRam (d := 0x00#8) hr hclock hshown hram).1
    · exact answers_of_readsAs
        (mbc3RamWindow_of_ram (d := 0x00#8) hr hclock hshown hram (inRange_iff.1 hwf).2 rfl).1
  | wrXramMbc3Ram u a d =>
    obtain ⟨c, r, hr, hshown⟩ := hasMbc3_of_viewWindow (beq_iff_eq.1 happ)
    by_cases hram : c.header.xramLen = 0
    · exact answers_of_writesAs (mbc3RamWindow_of_noRam hr hclock hshown hram).2
    · exact answers_of_writesAs (mbc3RamWindow_of_ram hr hclock hshown hram (inRange_iff.1 hwf).2 rfl).2
  | rdRtcMbc3 u a =>
    obtain ⟨reg, hreg⟩ := isRtc_iff.1 happ
    obtain ⟨c, r, hr, hshown⟩ := hasMbc3_of_viewWindow hreg
    exact answers_of_readsAs (readsAs_rdRtc hr hclock hshown)
  | wrRtcSMbc3 u a d | wrRtcMMbc3 u a d | wrRtcHMbc3 u a d | wrRtcDlMbc3 u a d | wrRtcDhMbc3 u a d =>
    obtain ⟨c, r, hr, hshown⟩ := hasMbc3_of_viewWindow (beq_iff_eq.1 happ)
    exact answers_of_writesAs (writesAs_rtcWrite hr hclock hshown rfl)
  | rdWram0 u a =>
    obtain ⟨hlo, hhi⟩ := inRange_iff.1 hwf
    exact answers_of_readsAs ((workRamReads s u a hclock).1 hlo hhi)
  | rdWramX u a =>
    obtain ⟨hlo, hhi⟩ := inRange_iff.1 hwf
    exact answers_of_readsAs ((workRamReads s u a hclock).2 hlo hhi)
  | wrWram0 u a d =>
    obtain ⟨hlo, hhi⟩ := inRange_iff.1 hwf
    exact answers_of_writesAs ((workRamWrites s u a d hclock).1 hlo hhi)
  | wrWramX u a d =>
    obtain ⟨hlo, hhi⟩ := inRange_iff.1 hwf
    exact answers_of_writesAs ((workRamWrites s u a d hclock).2 hlo hhi)
  | rdHram u a =>
    obtain ⟨hlo, hhi⟩ := inRange_iff.1 hwf
    exact answers_of_readsAs (highRamAccess s u a 0x00#8 hclock hlo hhi).1
  | wrHram u a d =>
    obtain ⟨hlo, hhi⟩ := inRange_iff.1 hwf
    exact answers_of_writesAs (highRamAccess s u a d hclock hlo hhi).2
  | rdSvbk u =>
    obtain ⟨hcgb, hdmg⟩ := svbkAccess s u 0x00#8 hclock
    cases hmode : s.cgb with
    | true => exact answers_of_readsAs (hcgb hmode).1
    | false => exact answers_of_readsAs (hdmg hmode).1
  | wrSvbk u d =>
    obtain ⟨hcgb, hdmg⟩ := svbkAccess s u d hclock
    cases hmode : s.cgb with
    | true => exact answers_of_writesAs (hcgb hmode).2
    | false => exact answers_of_writesAs (hdmg hmode).2
  | rdFfff u | rdOpen u a => exact answers_of_readsAs (readsAs_of_openRead hclock rfl)
  | wrFfff u d | wrOpen u a d => exact answers_of_writesAs (writesAs_of_droppedWrite hclock rfl)

/-- Settles O10: the decoded kind is well-formed and applies in the view it was decoded in, and such a kind answers. -/
theorem everyTransactionAnswers : Obligations.EveryTransactionAnswers := by
  intro s r rest _ hqueue hclock
  rw [step_of_transaction hqueue]
  have hdecoded := decode_carries s.view r.word
  exact answers_of_applies (s := s.take r rest) hdecoded.wf hdecoded.applies fun c m hm hu => hclock hu c m hm

end Sys2Proof.Machine
end

section
/-! PROOFS. The families of spec/60_exceptions.md and spec/70_reset_and_hazards.md: loading, attaching, restoring. -/

namespace Sys2Proof.Machine

/-! ## The checksum -/

/-- Each step takes off the byte and one more. -/
theorem foldl_checksumStep (bytes : List Byte) (x : Byte) :
    bytes.foldl checksumStep x = x - BitVec.ofNat 8 bytes.length - bytes.foldr (· + ·) 0#8 := by
  induction bytes generalizing x with
  | nil => simp
  | cons b rest ih =>
    rw [List.foldl_cons, ih, checksumStep, List.foldr_cons, List.length_cons, BitVec.ofNat_add]
    ring

/-- Settles O57: the closed form of the steps over the 25 bytes of the region. -/
theorem checksumClosedForm : Obligations.ChecksumClosedForm := by
  intro file hlen
  have hcount : ((file.drop 0x0134).take 25).length = 25 := by
    rw [List.length_take, List.length_drop]
    omega
  rw [headerChecksum, foldl_checksumStep, hcount]

/-! ## The type codes -/

/-- The rows of the cartridge-type table (spec/30_encoding.md R118), and no line for any other code. -/
theorem typeLine_cases (code : Byte) :
    (code.toNat = 0x00 ∧ typeLine code = some ⟨.basic, false, false, false⟩) ∨
    (code.toNat = 0x01 ∧ typeLine code = some ⟨.basic, true, false, false⟩) ∨
    (code.toNat = 0x02 ∧ typeLine code = some ⟨.basic, true, true, false⟩) ∨
    (code.toNat = 0x0F ∧ typeLine code = some ⟨.mbc3, false, true, true⟩) ∨
    (code.toNat = 0x10 ∧ typeLine code = some ⟨.mbc3, true, true, true⟩) ∨
    (code.toNat = 0x11 ∧ typeLine code = some ⟨.mbc3, false, false, false⟩) ∨
    (code.toNat = 0x12 ∧ typeLine code = some ⟨.mbc3, true, false, false⟩) ∨
    (code.toNat = 0x13 ∧ typeLine code = some ⟨.mbc3, true, true, false⟩) ∨
    (code.toNat = 0x19 ∧ typeLine code = some ⟨.mbc1, false, false, false⟩) ∨
    (code.toNat = 0x1A ∧ typeLine code = some ⟨.mbc1, true, false, false⟩) ∨
    (code.toNat = 0x1B ∧ typeLine code = some ⟨.mbc1, true, true, false⟩) ∨
    ((code.toNat ≠ 0x00 ∧ code.toNat ≠ 0x01 ∧ code.toNat ≠ 0x02 ∧ code.toNat ≠ 0x0F ∧ code.toNat ≠ 0x10 ∧
      code.toNat ≠ 0x11 ∧ code.toNat ≠ 0x12 ∧ code.toNat ≠ 0x13 ∧ code.toNat ≠ 0x19 ∧ code.toNat ≠ 0x1A ∧
      code.toNat ≠ 0x1B) ∧ typeLine code = none) := by
  unfold typeLine
  split <;> simp_all

/-- Settles O59: row by row of the table of type codes, and for a code outside it. -/
theorem validatorsAccept : Obligations.ValidatorsAccept := by
  intro h
  rcases typeLine_cases h.cartridgeType with hrow | hrow | hrow | hrow | hrow | hrow | hrow | hrow | hrow | hrow |
    hrow | hrow
  all_goals
    obtain ⟨hcode, hline⟩ := hrow
    simp [Header.valid, Header.hasBattery, Header.hasTimer, hline, sizesValid, hcode]

/-! ## Making a cartridge -/

section
variable {file : List Byte} {now : Nat}

theorem makeCart_of_short (hlen : file.length < 0x0150) : makeCart file now = .error .malformedHeader := if_pos hlen

theorem makeCart_of_badChecksum (hsum : headerChecksum file ≠ fileByte file 0x014D) :
    makeCart file now = .error .malformedHeader := by
  unfold makeCart
  rw [if_pos hsum, ite_self]

theorem makeCart_of_noType (htype : typeLine (parseHeader file).cartridgeType = none) :
    makeCart file now = .error .malformedHeader := by
  simp [makeCart, htype]

/-- With the first checks passed the validator and the length decide. -/
theorem makeCart_of_type {line : TypeLine} (hlen : 0x0150 ≤ file.length)
    (hsum : headerChecksum file = fileByte file 0x014D)
    (htype : typeLine (parseHeader file).cartridgeType = some line) :
    makeCart file now =
      if (parseHeader file).valid then
        if file.length < (parseHeader file).romLen then .error .ioFailure
        else .ok (finalizeCart (parseHeader file) line.variant file now)
      else .error .headerMismatch := by
  unfold makeCart
  rw [if_neg (Nat.not_lt.2 hlen), if_neg (not_not.2 hsum), htype]

end

/-- Settles O56: the checks one after the other, and a made cartridge is legal. -/
theorem loadChecksInOrder : Obligations.LoadChecksInOrder := by
  intro file now
  refine ⟨makeCart_of_short, fun hlen => ⟨makeCart_of_badChecksum, makeCart_of_noType, fun hsum htype => ?_⟩⟩
  obtain ⟨line, hline⟩ := Option.ne_none_iff_exists'.1 htype
  have hmake := makeCart_of_type (now := now) hlen hsum hline
  refine ⟨fun hinvalid => ?mismatch, fun hvalid hshort => ?short, fun hvalid hlong => ?good⟩
  case mismatch => rw [hmake, hinvalid, if_neg Bool.false_ne_true]
  case short => rw [hmake, if_pos hvalid, if_pos hshort]
  case good =>
    rw [if_pos hvalid, if_neg (Nat.not_lt.2 hlong)] at hmake
    exact ⟨_, hmake, makeCart_legal hmake⟩

/-- Settles O58: a made cartridge is what finalize gives, field by field. -/
theorem finalizeDefaults : Obligations.FinalizeDefaults := by
  intro file now c hmake
  obtain ⟨-, -, -, -, line, hline, rfl⟩ := makeCart_ok hmake
  refine ⟨rfl, by simp [finalizeCart, hline], fun i hi => ?rom, fun _ => rfl, fun r hr => ?mbc1, fun r hr => ?mbc3⟩
  case rom =>
    have hi : i < (parseHeader file).romLen := hi
    exact (Memory.read_ofBytes _ i).trans (fileByte_take hi)
  case mbc1 =>
    have hr : Controller.initial line.variant now = .mbc1 r := hr
    cases hv : line.variant with
    | mbc1 =>
      rw [hv] at hr
      cases hr
      exact ⟨rfl, rfl, rfl, rfl⟩
    | basic | mbc3 =>
      rw [hv] at hr
      cases hr
  case mbc3 =>
    have hr : Controller.initial line.variant now = .mbc3 r := hr
    cases hv : line.variant with
    | mbc3 =>
      rw [hv] at hr
      cases hr
      exact ⟨rfl, rfl, rfl, rfl, rfl, rfl, rfl⟩
    | basic | mbc1 =>
      rw [hv] at hr
      cases hr

/-! ## Attaching -/

theorem supportsCgb_iff {h : Header} : h.supportsCgb = true ↔ h.cgbFlag = 0x80#8 ∨ h.cgbFlag = 0xC0#8 := by
  simp [Header.supportsCgb]

/-- The byte of the ROM the checksum is held against is in the header image. -/
theorem fileByte_headerImage {c : Cart} {i : Nat} (hi : i < 0x0150) : fileByte c.headerImage i = Memory.read c.rom i := by
  simp [fileByte, Cart.headerImage, List.getD_eq_getElem?_getD, hi]

/-- A legal cartridge's checksum is right for the byte its ROM holds. -/
theorem checksum_of_legal {c : Cart} (h : c.legal = true) : headerChecksum c.headerImage = Memory.read c.rom 0x014D := by
  obtain ⟨hmatch, -⟩ := cart_legal_iff.1 h
  obtain ⟨hheader, hsum⟩ := headerMatches_iff.1 hmatch
  rw [hsum, ← hheader, ← fileByte_headerImage (by decide)]
  rfl

theorem attachMove_of_not_legal {c : Cart} (h : ¬ c.legal = true) (s : State) :
    attachMove c s = .refused .illegalHostInput := if_neg h

@[simp] theorem svbkIndex_svbkInit (cgb : Bool) : svbkIndex (svbkInit cgb) = 0#3 := by
  cases cgb <;> rfl

@[simp] theorem svbkRead_svbkInit (cgb : Bool) : svbkRead (svbkInit cgb) = 0xF8#8 := by
  cases cgb <;> rfl

/-- The mode after an attach is the attached cartridge's. -/
theorem attach_cgb_iff (s : State) (o : Option Cart) :
    (s.attach o).cgb = true ↔ ∃ c, o = some c ∧ (c.header.cgbFlag = 0x80#8 ∨ c.header.cgbFlag = 0xC0#8) := by
  simp only [attach_cgb, Option.any_eq_true, supportsCgb_iff]

/-- Settles O54: attach sets each field so, and a cartridge that fails one of the tests is not legal. -/
theorem attachResetsMemory : Obligations.AttachResetsMemory := by
  intro s
  constructor
  · intro o ho
    refine ⟨{ s.attach o with report := none }, ?_, rfl, attach_cgb_iff s o, rfl, fun _ => ⟨rfl, rfl⟩,
      svbkIndex_svbkInit _, svbkRead_svbkInit _, rfl, rfl, rfl, rfl, rfl⟩
    cases o with
    | none => rfl
    | some c => exact attachMove_next.2 ⟨ho c rfl, rfl⟩
  · intro c hbad
    refine attachMove_of_not_legal (fun hlegal => ?_) s
    obtain ⟨hmatch, hvalid, -⟩ := cart_legal_iff.1 hlegal
    obtain ⟨hheader, -⟩ := headerMatches_iff.1 hmatch
    rcases hbad with hsum | hparse | hinvalid
    · exact hsum (checksum_of_legal hlegal)
    · exact hparse hheader
    · rw [hvalid] at hinvalid
      cases hinvalid

/-- Settles O55: a failed load attaches nothing, and with no cartridge the windows are open bus. -/
theorem failedLoadLeavesNoCartridge : Obligations.FailedLoadLeavesNoCartridge := by
  intro s file save now e hmake
  refine ⟨{ s.attach none with report := some e }, loadMove_next.2 (.inl ⟨e, hmake, rfl⟩), rfl, rfl,
    fun _ => ⟨rfl, rfl⟩, fun u a => ?_⟩
  obtain ⟨hrom, -, hxram, -⟩ := noCartridgeIsOpenBus { s.attach none with report := some e } u a 0x00#8 rfl
  exact ⟨hrom, hxram⟩

/-! ## Restoring a save -/

/-- The save image of a cartridge restored from a save of its length is the save's bytes. -/
theorem saveImage_restore {c : Cart} {sv : Save} (hlen : sv.xram.length = c.header.xramLen) :
    (restore c sv).saveImage = sv.xram := by
  apply List.ext_getElem
  · simp [Cart.saveImage, hlen]
  · intro i _ hi
    simp [Cart.saveImage, Memory.read_ofBytes, List.getD_eq_getElem?_getD, hi]

theorem restoreRtc_mbc3 (m : Mbc3) (v : RtcSave) :
    restoreRtc (.mbc3 m) (some v) =
      .mbc3 { m with live := v.live, latched := v.latched, lastUpdateTime := v.time } := rfl

/-- A restored MBC3 holds the saved registers. -/
theorem rtc_of_restoreRtc {k : Controller} {r : Mbc3} {v : RtcSave} (h : restoreRtc k (some v) = .mbc3 r) :
    r.live = v.live ∧ r.latched = v.latched ∧ r.lastUpdateTime = v.time := by
  cases k with
  | mbc3 m =>
    cases h
    exact ⟨rfl, rfl, rfl⟩
  | basic | mbc1 => cases h

/-- Settles O60: a good load attaches the made cartridge, with the save, if there is one, in its RAM and RTC. -/
theorem saveRoundTrip : Obligations.SaveRoundTrip := by
  intro s file now c hmake
  refine ⟨⟨_, loadMove_next.2 (.inr ⟨c, hmake, .inl ⟨rfl, rfl⟩⟩), rfl, rfl, fun _ => ⟨rfl, rfl⟩,
    svbkIndex_svbkInit _, rfl, rfl, rfl, rfl⟩, fun sv hsv => ?_⟩
  obtain ⟨-, hlen, -⟩ := save_legal_iff.1 hsv
  refine ⟨_, restore c sv, loadMove_next.2 (.inr ⟨c, hmake, .inr ⟨sv, rfl, hsv, rfl⟩⟩), rfl,
    restore_legal (makeCart_legal hmake) hsv, rfl, fun _ => ⟨rfl, rfl⟩, svbkIndex_svbkInit _, rfl, rfl, rfl, rfl,
    rfl, rfl, saveImage_restore hlen, fun hnone => ?_, fun m v hm hv => ?_, fun r v hr hv => ?_⟩
  · rw [restore_ctrl, hnone, restoreRtc_none]
  · rw [restore_ctrl, hm, hv, restoreRtc_mbc3]
  · rw [restore_ctrl, hv] at hr
    exact rtc_of_restoreRtc hr

end Sys2Proof.Machine
end
